-- ==== Sys2Proof/Word.lean ====
section
/-! DEFINITION. The value types of the block: bytes, 16-bit words, byte strings, and the cause an event RESET carries. -/

namespace Sys2Proof

/-- 8 bits; bit 0 is the least significant (00 R12). -/
abbrev Byte := BitVec 8

/-- 16 bits (00 R12). -/
abbrev Word16 := BitVec 16

/-- A byte string (00 R12). -/
abbrev Bytes := List Byte

/-- The operand `c` of the event RESET(c) (70 R270). -/
inductive ResetSource where
  | powerOn
  | external
  | watchdog
  deriving DecidableEq, Repr, Inhabited

end Sys2Proof
end

