-- ==== Sys2Proof/Syntax.lean ====
section
/-! DEFINITION. The instructions of the block: one constructor per row of spec/opcode_table.json.

The first twelve rows are frame commands: a frame command is what the router reads from a validated frame (30 R94).
Its operands are the payload bytes the row does not fix. The bytes a row ignores (30 R91, R92) are operands too, so
that an encoding loses nothing. The frame's source address is no operand of a row (43 R170): it stays in `buf[0]`.
The last eight rows are the events of 00 R7. -/

namespace Sys2Proof

inductive Instr where
  /-- Row 1 of 30 R94, READ while `flash_err` = 1: the whole payload (43 R171). -/
  | degradedRead (payload : Bytes)
  /-- Row 1 of 30 R94, WRITE_THEN_READ while `flash_err` = 1: the whole payload (43 R171). -/
  | degradedWriteThenRead (payload : Bytes)
  /-- Row 2: a frame with no location byte; its command byte (43 R172). -/
  | emptyPayload (cmd : Byte)
  /-- Row 3: the ignored bytes after the location (43 R173). -/
  | readFwId (extra : Bytes)
  /-- Row 4 (43 R174). -/
  | readCompiler (extra : Bytes)
  /-- Row 5 (43 R175). -/
  | readTarget (extra : Bytes)
  /-- Row 6 (43 R176). -/
  | readControlStatus (extra : Bytes)
  /-- Row 7: the control bytes (43 R177). -/
  | writeControlStatus (ctrl : Bytes)
  /-- Row 8: the control bytes (43 R178). -/
  | writeThenReadControlStatus (ctrl : Bytes)
  /-- Row 9: the payload after the location: addr lo, addr hi, len and data when well formed (30 R90, 43 R179). -/
  | writeFwBlock (block : Bytes)
  /-- Row 10: the ignored bytes after the location (43 R180). -/
  | writeReflash (extra : Bytes)
  /-- Row 11: command, location and the rest of the payload (43 R181). -/
  | unknownPair (cmd : Byte) (loc : Byte) (rest : Bytes)
  /-- One byte received from the line (41 R123). -/
  | rxByte (b : Byte)
  /-- One period of the coarse timer (41 R125). -/
  | tick
  /-- One main-loop iteration (41 R127). -/
  | poll
  /-- The UART can take a byte (42 R150). -/
  | txReady
  /-- The UART finishes sending its oldest byte (42 R151). -/
  | uartShiftOut
  /-- One micro-operation of the flash engine (44 R205). -/
  | flashStep
  /-- A reset (70 R270). -/
  | reset (c : ResetSource)
  /-- Power lost during the next flash micro-operation, with the drawn bytes (70 R272). -/
  | powerFail (d : Bytes)
  deriving DecidableEq, Repr, Inhabited

end Sys2Proof
end

