-- ==== Sys2Proof/Machine/Stimulus.lean ====
section
/-! DEFINITION. What the environment can do: the events of 00 R7, and the items of a stimulus script (30 R98, R99). -/

namespace Sys2Proof

/-- The eight events of 00 R7. -/
inductive Event where
  | rxByte (b : Byte)
  | tick
  | poll
  | txReady
  | uartShiftOut
  | flashStep
  | reset (c : ResetSource)
  | powerFail (d : Bytes)
  deriving DecidableEq, Repr, Inhabited

/-- The instruction an event is (the event rows of spec/opcode_table.json). -/
def Event.instr : Event → Instr
  | .rxByte b => .rxByte b
  | .tick => .tick
  | .poll => .poll
  | .txReady => .txReady
  | .uartShiftOut => .uartShiftOut
  | .flashStep => .flashStep
  | .reset c => .reset c
  | .powerFail d => .powerFail d

/-- One item of a stimulus script. `snap` is no event: it queues the answer to the next snapshot draw (30 R98).
`drain` and `flash` are the pseudo-instructions of 30 R99 whose length depends on the state. -/
inductive Stimulus where
  | event (e : Event)
  | snap (bytes : Bytes)
  | drain
  | flash
  deriving DecidableEq, Repr, Inhabited

end Sys2Proof
end

