-- ==== Sys2Proof/Config.lean ====
section
/-! DEFINITION. The configuration parameters of 00 R9, the constraints a configuration must meet to be admitted
(00 R9, R11), the two configurations the spec names (`REF` and `TINY`), and the free values. -/

namespace Sys2Proof

/-- The parameter `CRC16` of 00 R9, "a function from byte strings to 16-bit values" (40 R110, 92 D8), as plain data:
the function of `REF`, or any other function, by a number that `Config.otherCrc` is applied to (log 2). -/
inductive CrcAlgorithm where
  | ccittFalse
  | other (id : Nat)
  deriving DecidableEq, Repr, Inhabited

/-- The parameter `FLASH_PROGRAM` of 92 D30: what programming a word that is not erased does (20 R58). -/
inductive FlashProgram where
  | and
  | overwrite
  deriving DecidableEq, Repr, Inhabited

/-- The parameters of 00 R9, each under the table's name, and `FLASH_PROGRAM` of 92 D30. -/
structure Config where
  startByte : Byte
  endByte : Byte
  devAddr : Byte
  cmdRead : Byte
  cmdWrite : Byte
  cmdWriteThenRead : Byte
  ackCode : Byte
  nackCode : Byte
  locFwId : Byte
  locCompiler : Byte
  locTarget : Byte
  locControlStatus : Byte
  locFwBlock : Byte
  locReflash : Byte
  stOk : Byte
  stBadAddress : Byte
  stWriteFailed : Byte
  stBadCrc : Byte
  crc16 : CrcAlgorithm
  bufSize : Nat
  maxPayload : Nat
  gapTicks : Nat
  guardPreTicks : Nat
  guardPostTicks : Nat
  uartDepth : Nat
  flashBase : Nat
  originBase : Nat
  destBase : Nat
  imageLen : Nat
  segSize : Nat
  flashEnd : Nat
  erasedByte : Byte
  flashProgram : FlashProgram
  fwIdStr : Bytes
  compilerStr : Bytes
  targetStr : Bytes
  statusSize : Nat
  deriving DecidableEq, Repr, Inhabited

namespace Config

/-- `NSEG = IMAGE_LEN / SEG_SIZE`, the number of segments in one image (00 section 5). -/
def nseg (c : Config) : Nat := c.imageLen / c.segSize

/-- The degraded-mode diagnostic "Bad CRC", fixed by 00 R9 (`BAD_CRC_TEXT`). -/
def badCrcText : Bytes := [0x42, 0x61, 0x64, 0x20, 0x43, 0x52, 0x43]

/-- An identity string is admitted: no zero byte, length at most 248 (00 R9). -/
abbrev StringOk (str : Bytes) : Prop := 0 ∉ str ∧ str.length ≤ 248

/-- The codes that must be distinct are (00 R9; 30 R87, R88, R89). -/
abbrev CodesOk (c : Config) : Prop :=
  [c.cmdRead, c.cmdWrite, c.cmdWriteThenRead, c.ackCode, c.nackCode].Nodup ∧
  [c.locFwId, c.locCompiler, c.locTarget, c.locControlStatus, c.locFwBlock, c.locReflash].Nodup ∧
  [c.stOk, c.stBadAddress, c.stWriteFailed, c.stBadCrc].Nodup

/-- Buffer, payload, timer, UART, string and snapshot constraints (00 R9). -/
abbrev SizesOk (c : Config) : Prop :=
  256 ≤ c.bufSize ∧ c.maxPayload = 249 ∧ 1 ≤ c.gapTicks ∧ 1 ≤ c.uartDepth ∧ c.statusSize ≤ 249 ∧
  StringOk c.fwIdStr ∧ StringOk c.compilerStr ∧ StringOk c.targetStr

/-- Flash geometry (00 R9, R11). The regions are [ORIGIN_BASE, ORIGIN_BASE + IMAGE_LEN) and [DEST_BASE, FLASH_END). -/
abbrev GeometryOk (c : Config) : Prop :=
  2 ≤ c.segSize ∧ c.segSize % 2 = 0 ∧
  4 ≤ c.imageLen ∧ c.imageLen % c.segSize = 0 ∧
  c.flashBase % c.segSize = 0 ∧ c.originBase % c.segSize = 0 ∧ c.destBase % c.segSize = 0 ∧
  c.flashBase ≤ c.originBase ∧ c.originBase + c.imageLen ≤ c.destBase ∧
  c.flashEnd = c.destBase + c.imageLen ∧ c.flashEnd ≤ 0x10000

/-- A configuration is admitted only if every constraint of 00 R9 and R11 holds. -/
abbrev Admitted (c : Config) : Prop := c.CodesOk ∧ c.SizesOk ∧ c.GeometryOk

/-- `REF`, the spec's reference configuration (00 R9). -/
def ref : Config where
  startByte := 0x02
  endByte := 0x03
  devAddr := 0x10
  cmdRead := 0x52
  cmdWrite := 0x57
  cmdWriteThenRead := 0x58
  ackCode := 0x06
  nackCode := 0x15
  locFwId := 0x00
  locCompiler := 0x01
  locTarget := 0x02
  locControlStatus := 0x03
  locFwBlock := 0x04
  locReflash := 0x05
  stOk := 0x00
  stBadAddress := 0x01
  stWriteFailed := 0x02
  stBadCrc := 0x03
  crc16 := .ccittFalse
  bufSize := 256
  maxPayload := 249
  gapTicks := 3
  guardPreTicks := 1
  guardPostTicks := 1
  uartDepth := 2
  flashBase := 0x4000
  originBase := 0x4000
  destBase := 0xA000
  imageLen := 0x6000
  segSize := 0x0200
  flashEnd := 0x10000
  erasedByte := 0xFF
  flashProgram := .and
  fwIdStr := [0x57, 0x54, 0x53, 0x2D, 0x46, 0x57]
  compilerStr := [0x43, 0x43, 0x2D, 0x31]
  targetStr := [0x57, 0x54, 0x43]
  statusSize := 4

/-- `TINY`, which differs from `REF` only in the flash geometry (00 R9). -/
def tiny : Config :=
  { ref with
    flashBase := 0x0100
    originBase := 0x0100
    destBase := 0x0110
    imageLen := 0x0010
    segSize := 0x0008
    flashEnd := 0x0120 }

/-- Free value: the event the environment takes when no stimulus is queued. Every order of events is admitted
(60 R249, 93 section 1), so nothing constrains it (log 3). -/
opaque freeEvent : Nat → Event

/-- Free value: a byte the environment draws (`draw` of 00 R13), for a status snapshot (10 R24) or for the bytes a
power failure leaves (70 R272) (log 5, 6). -/
opaque freeByte : Nat → Byte

/-- Free value: any checksum function other than `REF`'s (00 R9 `CRC16`, 92 D8) (log 2). -/
opaque otherCrc : Nat → Bytes → Word16

end Config

end Sys2Proof
end

