-- ==== Sys2Proof/Machine/Crc.lean ====
section
/-! DEFINITION. Byte order (00 R12, 20 R53) and the CRC-16 validator (40 R110 to R116). -/

namespace Sys2Proof

/-- `lo8(w) = w[7:0]` (00 R12). -/
def lo8 (w : Word16) : Byte := w.extractLsb' 0 8

/-- `hi8(w) = w[15:8]` (00 R12). -/
def hi8 (w : Word16) : Byte := w.extractLsb' 8 8

/-- `LE16(b0, b1) = b0 + 256·b1` (00 R12): the low byte first. -/
def le16 (b0 b1 : Byte) : Word16 := b1 ++ b0

/-- The erased pattern as a word (44 R209). -/
def Config.erasedWord (c : Config) : Word16 := le16 c.erasedByte c.erasedByte

/-- One of the eight rounds of 40 R110: shift left, and XOR 0x1021 when bit 15 was 1. -/
def crcBit (c : Word16) : Word16 := if c.getLsbD 15 then (c <<< 1) ^^^ 0x1021 else c <<< 1

/-- One byte of 40 R110: XOR it into the high byte, then eight rounds. -/
def crcByte (c : Word16) (b : Byte) : Word16 :=
  crcBit (crcBit (crcBit (crcBit (crcBit (crcBit (crcBit (crcBit (c ^^^ (b.setWidth 16 <<< 8)))))))))

/-- `CRC16` of `REF` (40 R110): initial value 0xFFFF, polynomial 0x1021, most significant bit first. -/
def crcCcittFalse (bytes : Bytes) : Word16 := bytes.foldl crcByte 0xFFFF

/-- The configuration's `CRC16` (00 R9). -/
def Config.crc (c : Config) (bytes : Bytes) : Word16 :=
  match c.crc16 with
  | .ccittFalse => crcCcittFalse bytes
  | .other id => Config.otherCrc id bytes

/-- The two bytes stored for a CRC, low byte first (40 R111, 30 R86). -/
def Config.crcField (c : Config) (bytes : Bytes) : Bytes := [lo8 (c.crc bytes), hi8 (c.crc bytes)]

/-- `crc_generate(R, n)` on a region as a byte string (40 R111). -/
def Config.crcGenerate (c : Config) (region : Bytes) (n : Nat) : Bytes :=
  region.take n ++ c.crcField (region.take n) ++ region.drop (n + 2)

/-- `crc_is_invalid(R, n)` (40 R112): the CRC of the first `n` bytes differs from the word stored after them. A region
has at least `n + 2` bytes. -/
def Config.crcIsInvalid (c : Config) (region : Bytes) (n : Nat) : Bool :=
  c.crc (region.take n) != le16 (region.getD n 0) (region.getD (n + 1) 0)

end Sys2Proof
end

