-- ==== Sys2Proof/WellFormed.lean ====
section
/-! DEFINITION. Which instructions have an encoding: the payload fits the one-byte length field (30 R84), an unknown
pair is none of the handled pairs (30 R95), and a power failure draws as many bytes as some micro-operation changes
(44 R221). -/

namespace Sys2Proof

/-- The (command, location) pairs of rows 3 to 10 of 30 R94. -/
def Config.pairHandled (c : Config) (cmd loc : Byte) : Bool :=
  (cmd == c.cmdRead &&
    (loc == c.locFwId || loc == c.locCompiler || loc == c.locTarget || loc == c.locControlStatus)) ||
  (cmd == c.cmdWrite && (loc == c.locControlStatus || loc == c.locFwBlock || loc == c.locReflash)) ||
  (cmd == c.cmdWriteThenRead && loc == c.locControlStatus)

/-- A location byte and `rest` fit a payload (30 R84). -/
def Config.restFits (c : Config) (rest : Bytes) : Bool := decide (rest.length + 1 ≤ c.maxPayload)

/-- The instruction has an encoding under the configuration. -/
def Instr.wf (c : Config) : Instr → Bool
  | .degradedRead payload => decide (payload.length ≤ c.maxPayload)
  | .degradedWriteThenRead payload => decide (payload.length ≤ c.maxPayload)
  | .emptyPayload _ => true
  | .readFwId extra => c.restFits extra
  | .readCompiler extra => c.restFits extra
  | .readTarget extra => c.restFits extra
  | .readControlStatus extra => c.restFits extra
  | .writeControlStatus ctrl => c.restFits ctrl
  | .writeThenReadControlStatus ctrl => c.restFits ctrl
  | .writeFwBlock block => c.restFits block
  | .writeReflash extra => c.restFits extra
  | .unknownPair cmd loc rest => c.restFits rest && !c.pairHandled cmd loc
  | .rxByte _ => true
  | .tick => true
  | .poll => true
  | .txReady => true
  | .uartShiftOut => true
  | .flashStep => true
  | .reset _ => true
  | .powerFail d => d.length == 0 || d.length == 2 || d.length == c.segSize

end Sys2Proof
end

