-- ==== Sys2Proof/Decode.lean ====
section
/-! DEFINITION. Decoding and encoding. Frames (30 R80 to R97) and stimulus scripts (30 R98, R99), each total on any
input and rejecting by name, and after them an encoder written from the same tables. -/

namespace Sys2Proof

/-- Why bytes on the wire or a script line hold no instruction. -/
inductive DecodeError where
  /-- The bytes hold no START byte (41 R120). -/
  | noStart
  /-- Fewer bytes than the length byte declares (41 R130 corner case 1). -/
  | incomplete
  /-- The length byte is below 6 (30 R83). -/
  | shortLength
  /-- The byte at index `length` is not END (41 R130). -/
  | badEnd
  /-- The target is not this device (41 R133). -/
  | foreign
  /-- The CRC does not match (40 R113). -/
  | badCrc
  /-- A script line's first word is none of 30 R98 and R99. -/
  | unknownWord
  /-- A script operand is no hexadecimal number, or no byte where a byte is wanted. -/
  | badNumber
  /-- A script line has the wrong number of operands, or a frame's payload does not fit. -/
  | badOperands
  /-- A script line that stands for no event, or for several. -/
  | notOneEvent
  deriving DecidableEq, Repr

/-! ### Frames -/

/-- Rows 3 to 11 of 30 R94: the row a (command, location) pair selects. -/
def decodePair (c : Config) (cmd loc : Byte) (rest : Bytes) : Instr :=
  if cmd = c.cmdRead ∧ loc = c.locFwId then .readFwId rest
  else if cmd = c.cmdRead ∧ loc = c.locCompiler then .readCompiler rest
  else if cmd = c.cmdRead ∧ loc = c.locTarget then .readTarget rest
  else if cmd = c.cmdRead ∧ loc = c.locControlStatus then .readControlStatus rest
  else if cmd = c.cmdWrite ∧ loc = c.locControlStatus then .writeControlStatus rest
  else if cmd = c.cmdWriteThenRead ∧ loc = c.locControlStatus then .writeThenReadControlStatus rest
  else if cmd = c.cmdWrite ∧ loc = c.locFwBlock then .writeFwBlock rest
  else if cmd = c.cmdWrite ∧ loc = c.locReflash then .writeReflash rest
  else .unknownPair cmd loc rest

/-- The opcode map of 30 R94: the first row that applies. `flashErr` selects row 1 and is the only state it reads
(30 R97). -/
def decodeCommand (c : Config) (flashErr : Bool) (cmd : Byte) (payload : Bytes) : Instr :=
  if flashErr = true ∧ cmd = c.cmdRead then .degradedRead payload
  else if flashErr = true ∧ cmd = c.cmdWriteThenRead then .degradedWriteThenRead payload
  else
    match payload with
    | [] => .emptyPayload cmd
    | loc :: rest => decodePair c cmd loc rest

/-- A frame as the receiver stores it, `buf[0..]`, checked in the order of 41 R130: length below 6, complete, END,
target, CRC; then the opcode map. Bytes after the END byte are ignored (41 R123). -/
def decodeFrame (c : Config) (flashErr : Bool) (buf : Bytes) : Except DecodeError Instr :=
  match buf with
  | _src :: target :: cmd :: len :: body =>
    if len.toNat < 6 then .error .shortLength
    else
      match body.drop (len.toNat - 4) with
      | [] => .error .incomplete
      | endByte :: _ =>
        if endByte ≠ c.endByte then .error .badEnd
        else if target ≠ c.devAddr then .error .foreign
        else if c.crcIsInvalid buf (len.toNat - 2) then .error .badCrc
        else .ok (decodeCommand c flashErr cmd (body.take (len.toNat - 6)))
  | _ => .error .incomplete

/-- Bytes on the wire: everything before START is discarded (41 R120) and START is not stored (30 R85). -/
def decodeWire (c : Config) (flashErr : Bool) (wire : Bytes) : Except DecodeError Instr :=
  match wire.dropWhile (· != c.startByte) with
  | [] => .error .noStart
  | _ :: buf => decodeFrame c flashErr buf

/-- A frame as the receiver stores it and as the composer builds it (30 R81, R82, R86): source, target, command,
length, payload, CRC low byte first, END. -/
def frameImage (c : Config) (source target cmd : Byte) (payload : Bytes) : Bytes :=
  let covered := [source, target, cmd, BitVec.ofNat 8 (payload.length + 6)] ++ payload
  covered ++ c.crcField covered ++ [c.endByte]

/-- A frame on the wire (30 R80). -/
def frameWire (c : Config) (source target cmd : Byte) (payload : Bytes) : Bytes :=
  c.startByte :: frameImage c source target cmd payload

/-! ### Stimulus scripts -/

/-- The value of a hexadecimal digit (30 R98); both cases are taken (log 19). -/
def hexDigit (ch : Char) : Option Nat :=
  let n := ch.toNat
  if 48 ≤ n ∧ n ≤ 57 then some (n - 48)
  else if 65 ≤ n ∧ n ≤ 70 then some (n - 55)
  else if 97 ≤ n ∧ n ≤ 102 then some (n - 87)
  else none

/-- A hexadecimal number, most significant digit first, read on from `acc`. -/
def hexNumberFrom (acc : Nat) : List Char → Option Nat
  | [] => some acc
  | ch :: rest =>
    match hexDigit ch with
    | some d => hexNumberFrom (16 * acc + d) rest
    | none => none

/-- A word of a script line as a number: hexadecimal without a prefix (30 R98). -/
def scriptNumber (word : List Char) : Except DecodeError Nat :=
  match word with
  | [] => .error .badNumber
  | _ =>
    match hexNumberFrom 0 word with
    | some n => .ok n
    | none => .error .badNumber

/-- A word of a script line as a byte. -/
def scriptByte (word : List Char) : Except DecodeError Byte :=
  match scriptNumber word with
  | .ok n => if n < 256 then .ok (BitVec.ofNat 8 n) else .error .badNumber
  | .error e => .error e

/-- The words of a script line as bytes. -/
def scriptBytes : List (List Char) → Except DecodeError Bytes
  | [] => .ok []
  | w :: ws =>
    match scriptByte w, scriptBytes ws with
    | .ok b, .ok bs => .ok (b :: bs)
    | .error e, _ => .error e
    | _, .error e => .error e

/-- The optional repeat count of TICK, POLL and FSTEP, 1 where it is left out (30 R98). -/
def scriptCount : List (List Char) → Except DecodeError Nat
  | [] => .ok 1
  | [w] => scriptNumber w
  | _ => .error .badOperands

/-- A finished word, none when it is empty. -/
def flushWord (word : List Char) : List (List Char) := if word = [] then [] else [word]

/-- The words of a line, split at spaces and tabs; `;` starts a comment (30 R98). `word` is the word being read. -/
def scriptWordsFrom (word : List Char) : List Char → List (List Char)
  | [] => flushWord word
  | ch :: rest =>
    if ch = ';' then flushWord word
    else if ch = ' ' ∨ ch = '\t' then flushWord word ++ scriptWordsFrom [] rest
    else scriptWordsFrom (word ++ [ch]) rest

def scriptWords (line : List Char) : List (List Char) := scriptWordsFrom [] line

/-- The cause words of `RESET c` (30 R98). -/
def resetWord : ResetSource → List Char
  | .powerOn => ['P', 'O', 'W', 'E', 'R', '_', 'O', 'N']
  | .external => ['E', 'X', 'T', 'E', 'R', 'N', 'A', 'L']
  | .watchdog => ['W', 'A', 'T', 'C', 'H', 'D', 'O', 'G']

def scriptCause (word : List Char) : Except DecodeError ResetSource :=
  if word = resetWord .powerOn then .ok .powerOn
  else if word = resetWord .external then .ok .external
  else if word = resetWord .watchdog then .ok .watchdog
  else .error .unknownWord

/-- The bytes as RX_BYTE events, in order. -/
def rxEvents (bytes : Bytes) : List Stimulus := bytes.map fun b => .event (.rxByte b)

/-- `FRAME src tgt cmd p…` (30 R99): the whole frame as RX_BYTE events. `crcFlip` is XORed into the CRC's low byte: 0
for FRAME and 1 for BADFRAME. A payload over the limit has no frame (30 R84). -/
def scriptFrame (c : Config) (crcFlip : Byte) (operands : Bytes) : Except DecodeError (List Stimulus) :=
  match operands with
  | source :: target :: cmd :: payload =>
    if payload.length ≤ c.maxPayload then
      let covered := [source, target, cmd, BitVec.ofNat 8 (payload.length + 6)] ++ payload
      let crc := c.crc covered
      .ok (rxEvents (c.startByte :: covered ++ [lo8 crc ^^^ crcFlip, hi8 crc, c.endByte]))
    else .error .badOperands
  | _ => .error .badOperands

/-- `TURN` (30 R99). -/
def turnStimuli : List Stimulus := [.event .tick, .event .poll, .drain, .event .tick, .event .poll]

/-- A value the operands give, with no operand left over. -/
def noOperands (args : List (List Char)) (items : List Stimulus) : Except DecodeError (List Stimulus) :=
  if args = [] then .ok items else .error .badOperands

/-- One script line, as words: the items it stands for (30 R98, R99). A blank line stands for none. -/
def decodeWords (c : Config) : List (List Char) → Except DecodeError (List Stimulus)
  | [] => .ok []
  | word :: args =>
    if word = ['R', 'X'] then (scriptBytes args).map rxEvents
    else if word = ['T', 'I', 'C', 'K'] then (scriptCount args).map (List.replicate · (.event .tick))
    else if word = ['P', 'O', 'L', 'L'] then (scriptCount args).map (List.replicate · (.event .poll))
    else if word = ['T', 'X', 'R'] then noOperands args [.event .txReady]
    else if word = ['S', 'H', 'I', 'F', 'T'] then noOperands args [.event .uartShiftOut]
    else if word = ['F', 'S', 'T', 'E', 'P'] then (scriptCount args).map (List.replicate · (.event .flashStep))
    else if word = ['R', 'E', 'S', 'E', 'T'] then
      match args with
      | [cause] => (scriptCause cause).map fun r => [.event (.reset r)]
      | _ => .error .badOperands
    else if word = ['P', 'F', 'A', 'I', 'L'] then (scriptBytes args).map fun d => [.event (.powerFail d)]
    else if word = ['S', 'N', 'A', 'P'] then (scriptBytes args).map fun b => [.snap b]
    else if word = ['F', 'R', 'A', 'M', 'E'] then (scriptBytes args).bind (scriptFrame c 0)
    else if word = ['B', 'A', 'D', 'F', 'R', 'A', 'M', 'E'] then (scriptBytes args).bind (scriptFrame c 1)
    else if word = ['D', 'R', 'A', 'I', 'N'] then noOperands args [.drain]
    else if word = ['T', 'U', 'R', 'N'] then noOperands args turnStimuli
    else if word = ['F', 'L', 'A', 'S', 'H'] then noOperands args [.flash]
    else .error .unknownWord

/-- One line of script text. -/
def decodeLine (c : Config) (line : List Char) : Except DecodeError (List Stimulus) :=
  decodeWords c (scriptWords line)

/-- A script, one line each: the items of its lines in order. -/
def decodeScript (c : Config) : List (List Char) → Except DecodeError (List Stimulus)
  | [] => .ok []
  | line :: lines =>
    match decodeLine c line, decodeScript c lines with
    | .ok items, .ok more => .ok (items ++ more)
    | .error e, _ => .error e
    | _, .error e => .error e

/-! ### Instructions -/

/-- An encoded instruction: a frame command as bytes on the wire, an event as a script line. -/
inductive Encoded where
  | wire (bytes : Bytes)
  | line (text : List Char)
  deriving DecidableEq, Repr

/-- The instruction an encoding stands for. `flashErr` is the one piece of state the opcode map reads (30 R97). -/
def decode (c : Config) (flashErr : Bool) : Encoded → Except DecodeError Instr
  | .wire bytes => decodeWire c flashErr bytes
  | .line text =>
    match decodeLine c text with
    | .ok [.event e] => .ok e.instr
    | .ok _ => .error .notOneEvent
    | .error e => .error e

/-- A hexadecimal digit, upper case. -/
def hexChar (n : Nat) : Char := if n < 10 then Char.ofNat (48 + n) else Char.ofNat (55 + n)

/-- A byte as two hexadecimal digits. -/
def hexByte (b : Byte) : List Char := [hexChar (b.toNat / 16), hexChar (b.toNat % 16)]

/-- Bytes as script operands, each after a space. -/
def hexOperands (bytes : Bytes) : List Char := bytes.flatMap fun b => ' ' :: hexByte b

/-- The command byte and payload of a frame command's frame (30 R87, R88, R90 to R92); none for an event. -/
def Instr.frame (c : Config) : Instr → Option (Byte × Bytes)
  | .degradedRead payload => some (c.cmdRead, payload)
  | .degradedWriteThenRead payload => some (c.cmdWriteThenRead, payload)
  | .emptyPayload cmd => some (cmd, [])
  | .readFwId extra => some (c.cmdRead, c.locFwId :: extra)
  | .readCompiler extra => some (c.cmdRead, c.locCompiler :: extra)
  | .readTarget extra => some (c.cmdRead, c.locTarget :: extra)
  | .readControlStatus extra => some (c.cmdRead, c.locControlStatus :: extra)
  | .writeControlStatus ctrl => some (c.cmdWrite, c.locControlStatus :: ctrl)
  | .writeThenReadControlStatus ctrl => some (c.cmdWriteThenRead, c.locControlStatus :: ctrl)
  | .writeFwBlock block => some (c.cmdWrite, c.locFwBlock :: block)
  | .writeReflash extra => some (c.cmdWrite, c.locReflash :: extra)
  | .unknownPair cmd loc rest => some (cmd, loc :: rest)
  | .rxByte _ | .tick | .poll | .txReady | .uartShiftOut | .flashStep | .reset _ | .powerFail _ => none

/-- The script line of an event (30 R98); empty for a frame command. -/
def Instr.line : Instr → List Char
  | .rxByte b => ['R', 'X'] ++ hexOperands [b]
  | .tick => ['T', 'I', 'C', 'K']
  | .poll => ['P', 'O', 'L', 'L']
  | .txReady => ['T', 'X', 'R']
  | .uartShiftOut => ['S', 'H', 'I', 'F', 'T']
  | .flashStep => ['F', 'S', 'T', 'E', 'P']
  | .reset r => ['R', 'E', 'S', 'E', 'T', ' '] ++ resetWord r
  | .powerFail d => ['P', 'F', 'A', 'I', 'L'] ++ hexOperands d
  | .degradedRead _ | .degradedWriteThenRead _ | .emptyPayload _ | .readFwId _ | .readCompiler _ | .readTarget _
  | .readControlStatus _ | .writeControlStatus _ | .writeThenReadControlStatus _ | .writeFwBlock _ | .writeReflash _
  | .unknownPair _ _ _ => []

/-- The encoding of an instruction: a frame command sent by `source` to this device, or an event's script line. -/
def encode (c : Config) (source : Byte) (i : Instr) : Encoded :=
  match i.frame c with
  | some (cmd, payload) => .wire (frameWire c source c.devAddr cmd payload)
  | none => .line i.line

/-- The rows the opcode map selects only while `flash_err` = 1 (30 R94 row 1). -/
def Instr.needsFlashErr : Instr → Bool
  | .degradedRead _ => true
  | .degradedWriteThenRead _ => true
  | .emptyPayload _ | .readFwId _ | .readCompiler _ | .readTarget _ | .readControlStatus _ | .writeControlStatus _
  | .writeThenReadControlStatus _ | .writeFwBlock _ | .writeReflash _ | .unknownPair _ _ _ | .rxByte _ | .tick | .poll
  | .txReady | .uartShiftOut | .flashStep | .reset _ | .powerFail _ => false

/-! ### The opcode table's key -/

/-- The frame that a key of spec/opcode_table.json stands for (30 R94: the key is `cmd·256 + loc`): a 16-bit key is a
command and a location with nothing after it, a key of 8 bits or fewer a command with an empty payload. The frame comes
from source 0 and is addressed to this device (log 13). -/
def keyFrame (c : Config) (nbits w : Nat) : Bytes :=
  if nbits ≤ 8 then frameImage c 0 c.devAddr (BitVec.ofNat 8 w) []
  else frameImage c 0 c.devAddr (BitVec.ofNat 8 (w / 256)) [BitVec.ofNat 8 w]

/-- The instruction the decoder reads from a table key under `REF`, with `flash_err` = 0 as after reset (log 13). -/
def decodeTableWord (nbits w : Nat) : Option Instr :=
  match decodeFrame Config.ref false (keyFrame Config.ref nbits w) with
  | .ok i => some i
  | .error _ => none

end Sys2Proof
end

