-- ==== Sys2Proof/Machine/Memory.lean ====
section
/-! DEFINITION. A byte memory as plain data: (address, byte) cells in one canonical form. The flash (20 R50) and the
frame buffer (20 R51) are both held this way. They differ in what an address with no cell reads as: a flash byte reads
as `ERASED_BYTE` (log 8), and a buffer byte has no value, since it has not been written since reset (10 R39, log 7). -/

namespace Sys2Proof.Machine

abbrev Memory := List Host.Cell

namespace Memory

/-- The byte the cell at `a` holds, if there is one. -/
def find? (a : Nat) : Memory → Option Byte
  | [] => none
  | (k, v) :: rest => if k = a then some v else find? a rest

/-- The cell at `a` becomes `b`, in its place in the rising order. -/
def insert (a : Nat) (b : Byte) : Memory → Memory
  | [] => [(a, b)]
  | (k, v) :: rest =>
    if a < k then (a, b) :: (k, v) :: rest
    else if k = a then (a, b) :: rest
    else (k, v) :: insert a b rest

/-- The cells of `[a, a + n)` are removed: those addresses read as unlisted ones do. -/
def clear (a n : Nat) (m : Memory) : Memory := m.filter fun c => !(decide (a ≤ c.1) && decide (c.1 < a + n))

/-- A write of one byte that keeps the canonical form, `unlisted` being what an address with no cell reads as. -/
def store (unlisted : Option Byte) (a : Nat) (b : Byte) (m : Memory) : Memory :=
  if unlisted = some b then clear a 1 m else insert a b m

/-- Bytes written at rising addresses from `a`. -/
def storeAll (unlisted : Option Byte) (a : Nat) : Bytes → Memory → Memory
  | [], m => m
  | b :: bs, m => storeAll unlisted (a + 1) bs (store unlisted a b m)

/-- The canonical form: addresses strictly rising, and no cell that holds what an unlisted address reads as. -/
abbrev wf (unlisted : Option Byte) (m : Memory) : Prop :=
  m.Pairwise (fun x y => x.1 < y.1) ∧ ∀ c ∈ m, some c.2 ≠ unlisted

end Memory

end Sys2Proof.Machine
end

