-- ==== Sys2Proof/Machine/State.lean ====
section
/-! DEFINITION. The state record of 10_state.md as plain data, the launch and reset states, and the reasons a step can
stop. -/

namespace Sys2Proof.Machine

/-- `tx_phase` (10 R22). -/
inductive TxPhase where
  | idle
  | pre
  | xmit
  | post
  deriving DecidableEq, Repr, Inhabited

/-- `fe_state` (10 R29). -/
inductive FeState where
  | idle
  | startupCheck
  | selfHeal
  | blockWrite
  | reflashing
  | rebooted
  deriving DecidableEq, Repr, Inhabited

/-- `fe_op` (10 R29). -/
inductive FeOp where
  | erase
  | write
  | verify
  | finish
  deriving DecidableEq, Repr, Inhabited

/-- The cause a `RESET` record carries (10 R23). -/
inductive ResetCause where
  | powerOn
  | external
  | watchdog
  | powerFail
  deriving DecidableEq, Repr, Inhabited

/-- The reason a `DISCARD` record carries (10 R23). -/
inductive DiscardReason where
  | shortLength
  | badEnd
  | foreign
  deriving DecidableEq, Repr, Inhabited

/-- A record of `host_log` (10 R23). -/
inductive Record where
  | reset (cause : ResetCause)
  | check (pbad bbad : Bool)
  | booted (flashErr : Bool)
  | abandon
  | discard (reason : DiscardReason)
  | crcReject
  | frame (source cmd : Byte) (payload : Bytes)
  | ctrl (bytes : Bytes)
  | snap (bytes : Bytes)
  deriving DecidableEq, Repr, Inhabited

/-- The causes of the error classes (a) to (e) (60 R240). -/
inductive ErrorCause where
  | shortLength
  | badEnd
  | foreign
  | truncated
  | badFrameCrc
  | unknownPair
  | emptyPayload
  | malformedBlock
  | badAddress
  | writeFailed
  | badBackupCrc
  | dualImage
  deriving DecidableEq, Repr, Inhabited

/-- The model faults of 60 R246: the rules give the state no meaning. All are safe: the model stops where the spec gives
no next state. An admitted configuration never reaches one from a state that meets `State.Inv`. -/
inductive Fault where
  /-- A write outside an element's type (10 R20). Raised by `bufStore`, `finalize`, `setTxIndex`, `setFeSeg` and
  `setFeOff`. Safe. -/
  | stateOverflow
  /-- An access outside `[FLASH_BASE, FLASH_END)` (20 R55). Raised by `memRead`, `flashStore`, `flashErase` and
  `flashWriteWord`. Safe (log 14). -/
  | flashRangeOutside
  /-- A word write at an odd address (20 R56). Raised by `flashWriteWord`. Safe. -/
  | misalignedWordWrite
  /-- A reply payload over `MAX_PAYLOAD` (42 R146). Raised by `payloadCheck`. Safe. -/
  | replyOverflow
  /-- An `fe_state`, `fe_op` pair that 44 R205 does not list. Raised by `execFlashStep`. Safe. -/
  | engineState
  /-- A read of a `buf` byte not written since reset (60 R246). Raised by `bufByte`. Safe (log 7). -/
  | unwrittenBuffer
  deriving DecidableEq, Repr

inductive Refusal where
  /-- An instruction that has no meaning yet. Raised by `exec`. Safe. -/
  | notModelled (mnemonic : String)
  /-- A configuration that violates 00 R9 or R11 is refused, not run (60 R246 `ConfigRefused`). Raised by `step`. Safe. -/
  | configRefused
  /-- The router was handed an event row, which is no frame command. Raised by `route`; the decoder of frames gives it
  none. Safe. -/
  | notFrameCommand
  deriving DecidableEq, Repr

/-- The state record (10 R20), the output `poll_result` (10 R25), and the model's own fields: the configuration
(log 1), the environment's script and queued snapshots (log 3, 5) and the counter of free values (log 3). -/
structure State where
  /-- The parameters of 00 R9. No event writes them. -/
  cfg : Config
  /-- The shared frame buffer: the bytes written since reset (10 R21, R39). -/
  buf : Memory
  rxActive : Bool
  rxCursor : Nat
  rxIe : Bool
  gapTimer : Nat
  txPhase : TxPhase
  txIndex : Nat
  txSize : Nat
  txIe : Bool
  guardTimer : Nat
  uartFifo : Bytes
  feState : FeState
  feOp : FeOp
  feSeg : Nat
  feOff : Nat
  bwAddr : Word16
  bwLen : Byte
  badCrcCount : Word16
  flashErr : Bool
  booted : Bool
  /-- The flash, non-volatile: the bytes that differ from `ERASED_BYTE` (10 R33). -/
  flash : Memory
  wireOut : Bytes
  hostLog : List Record
  pollResult : Bool
  script : List Stimulus
  snapQueue : List Bytes
  draws : Nat
  deriving DecidableEq, Repr

/-- The launch state (70 R274): the reset values of 10 R39 with an empty history, for any configuration and any flash
content at first power-on (a launch premise, 10 R33). -/
def State.launch (cfg : Config) (flash : Memory) : State where
  cfg := cfg
  buf := []
  rxActive := false
  rxCursor := 0
  rxIe := false
  gapTimer := 0
  txPhase := .idle
  txIndex := 0
  txSize := 0
  txIe := false
  guardTimer := 0
  uartFifo := []
  feState := .startupCheck
  feOp := .erase
  feSeg := 0
  feOff := 0
  bwAddr := 0
  bwLen := 0
  badCrcCount := 0
  flashErr := false
  booted := false
  flash := flash
  wireOut := []
  hostLog := []
  pollResult := false
  script := []
  snapQueue := []
  draws := 0

/-- The machine right after reset: the launch state of `REF` with nothing listed in the flash (log 1, 8). -/
def State.reset : State := State.launch Config.ref []

/-- The three outcomes of an instruction on this machine. -/
abbrev Result := Host.Outcome State Fault Refusal

end Sys2Proof.Machine
end

