-- ==== Sys2Proof/Machine/Operands.lean ====
section
/-! DEFINITION. The operand forms: bytes of the frame buffer, bytes and words of the flash, the firmware block of a
WRITE_FW_BLOCK, bytes drawn from the environment, and the flash bytes the next micro-operation targets. -/

namespace Sys2Proof.Machine

/-! ### The frame buffer (20 R51) -/

/-- `buf[i]`. A byte not written since reset is the fault `UnwrittenBuffer` (60 R246). -/
def bufByte (s : State) (i : Nat) : Except Fault Byte :=
  match s.buf.find? i with
  | some b => .ok b
  | none => .error .unwrittenBuffer

/-- `buf[i .. i + n)`. -/
def bufBytes (s : State) (i : Nat) : Nat → Except Fault Bytes
  | 0 => .ok []
  | n + 1 => do
    let b ← bufByte s i
    let bs ← bufBytes s (i + 1) n
    return b :: bs

/-! ### The flash (20 R50) -/

/-- The byte at a flash address; an address with no cell is erased (log 8). -/
def flashByte (s : State) (a : Nat) : Byte := (s.flash.find? a).getD s.cfg.erasedByte

/-- The flash bytes of `[a, a + n)`. -/
def flashBytes (s : State) (a : Nat) : Nat → Bytes
  | 0 => []
  | n + 1 => flashByte s a :: flashBytes s (a + 1) n

/-- `[a, a + n)` lies inside the flash (20 R55). -/
abbrev InFlash (s : State) (a n : Nat) : Prop := s.cfg.flashBase ≤ a ∧ a + n ≤ s.cfg.flashEnd

/-- `MemRead(a, n)` (20 R55). -/
def memRead (s : State) (a n : Nat) : Except Fault Bytes :=
  if InFlash s a n then .ok (flashBytes s a n) else .error .flashRangeOutside

/-- The little-endian word at `a` (20 R53). -/
def flashWord (s : State) (a : Nat) : Word16 := le16 (flashByte s a) (flashByte s (a + 1))

/-- `MemRead16(a)` (00 R13). -/
def memRead16 (s : State) (a : Nat) : Except Fault Word16 := do
  let b0 ← memRead s a 1
  let b1 ← memRead s (a + 1) 1
  return le16 (b0.headD 0) (b1.headD 0)

/-! ### The firmware block (30 R90) -/

/-- The fields `addr`, `len` and `data` of a firmware block, from the payload after the location byte. None when the
payload size is not `4 + len` (43 R179): P counts the location byte. -/
def blockFields (block : Bytes) : Option (Word16 × Byte × Bytes) :=
  match block with
  | lo :: hi :: len :: data => if data.length = len.toNat then some (le16 lo hi, len, data) else none
  | _ => none

/-- The arbiter's address check (43 R179), with no wrap-around (92 D33). -/
abbrev BlockAddressOk (c : Config) (addr : Word16) (len : Byte) : Prop :=
  addr.toNat % 2 = 0 ∧ c.flashBase ≤ addr.toNat ∧ addr.toNat + len.toNat < c.destBase

/-! ### Draws (00 R13) -/

/-- `n` bytes the environment supplies: those it has given, and free values for any it has not (log 5, 6). -/
def drawBytes (n : Nat) (given : Bytes) (s : State) : Bytes × State :=
  (given.take n ++ (List.range (n - given.length)).map (fun k => Config.freeByte (s.draws + k)),
    { s with draws := s.draws + (n - given.length) })

/-- The draw of a status snapshot: the first queued answer, if one is queued (30 R98 `SNAP`). -/
def drawSnapshot (s : State) : Bytes × State :=
  drawBytes s.cfg.statusSize (s.snapQueue.headD []) { s with snapQueue := s.snapQueue.tail }

/-! ### The copy engines' addresses (44 R208) -/

/-- The image copied from: ORIGIN in a reflash, DESTINATION in a self-heal. -/
def copySrc (s : State) : Nat := if s.feState = .reflashing then s.cfg.originBase else s.cfg.destBase

/-- The image copied to. -/
def copyDst (s : State) : Nat := if s.feState = .reflashing then s.cfg.destBase else s.cfg.originBase

/-- The offset of the next word of a copy within an image (44 R209). -/
def copyOffset (s : State) : Nat := s.feSeg * s.cfg.segSize + s.feOff

/-- The first address of the segment that holds `a` (20 R57). -/
def segmentBase (s : State) (a : Nat) : Nat := a - a % s.cfg.segSize

/-- `pf_target(s)`, the flash bytes the next FLASH_STEP would change, as a first address and a length (44 R221). -/
def pfTarget (s : State) : Nat × Nat :=
  match s.feState, s.feOp with
  | .reflashing, .erase | .selfHeal, .erase => (copyDst s + s.feSeg * s.cfg.segSize, s.cfg.segSize)
  | .reflashing, .write | .selfHeal, .write =>
    (copyDst s + copyOffset s, if flashWord s (copySrc s + copyOffset s) = s.cfg.erasedWord then 0 else 2)
  | .blockWrite, .erase => (segmentBase s s.bwAddr.toNat, s.cfg.segSize)
  | .blockWrite, .write => (s.bwAddr.toNat + s.feOff, 2)
  | _, _ => (0, 0)

end Sys2Proof.Machine
end

