-- ==== Sys2Proof/Machine/Flags.lean ====
section
/-! DEFINITION. The functions of state: `de`, `gie` and `frame_complete` (10 R26 to R28), when each event is enabled, and
the read-only register view (10 R34, R35). -/

namespace Sys2Proof.Machine

/-- `de`, the RS-485 driver enable (10 R26). -/
def de (s : State) : Bool := s.txPhase == .xmit || s.txPhase == .post

/-- `gie`, the global interrupt enable (10 R27). -/
def gie (s : State) : Bool := s.booted && s.feState != .reflashing && s.feState != .rebooted

/-- `frame_complete` (10 R28). The length byte is read only once it has arrived. -/
def frameComplete (s : State) : Except Fault Bool :=
  if s.rxCursor < 4 then .ok false
  else do
    let len ← bufByte s 3
    return decide (len.toNat + 1 ≤ s.rxCursor)

/-- POLL is enabled (41 R126). -/
abbrev PollEnabled (s : State) : Prop := s.booted = true ∧ s.feState = .idle

/-- TX_READY is enabled (42 R150). -/
abbrev TxReadyEnabled (s : State) : Prop :=
  gie s = true ∧ s.txIe = true ∧ s.txPhase = .xmit ∧ s.txIndex < s.txSize ∧ s.uartFifo.length < s.cfg.uartDepth

/-- FLASH_STEP is enabled (44 R203). -/
abbrev FlashStepEnabled (s : State) : Prop :=
  s.feState = .startupCheck ∨ s.feState = .selfHeal ∨ s.feState = .blockWrite ∨ s.feState = .reflashing

/-- RESET(c) is enabled (70 R270, 44 R211). -/
abbrev ResetEnabled (c : ResetSource) (s : State) : Prop := c = .watchdog → s.feState = .rebooted

/-! ### The register view (10 R34) -/

/-- The number of `tx_phase` (10 R22). -/
def TxPhase.number : TxPhase → Nat
  | .idle => 0
  | .pre => 1
  | .xmit => 2
  | .post => 3

/-- The number of `fe_state` (10 R29). -/
def FeState.number : FeState → Nat
  | .idle => 0
  | .startupCheck => 1
  | .selfHeal => 2
  | .blockWrite => 3
  | .reflashing => 4
  | .rebooted => 5

/-- The number of `fe_op` (10 R29). -/
def FeOp.number : FeOp → Nat
  | .erase => 0
  | .write => 1
  | .verify => 2
  | .finish => 3

/-- The register `STATUS`: bits 15:14 read 0, then GIE, FEOP, FEST, BOOTED, FLERR, DE, TXPH, TXIE, RXIE and RXACT
(10 R34). -/
def statusRegister (s : State) : Word16 :=
  (0 : BitVec 2) ++ BitVec.ofBool (gie s) ++ BitVec.ofNat 2 s.feOp.number ++ BitVec.ofNat 3 s.feState.number ++
    BitVec.ofBool s.booted ++ BitVec.ofBool s.flashErr ++ BitVec.ofBool (de s) ++ BitVec.ofNat 2 s.txPhase.number ++
    BitVec.ofBool s.txIe ++ BitVec.ofBool s.rxIe ++ BitVec.ofBool s.rxActive

/-- A field of `width` bits at the bottom of a register; the bits above read 0 (10 R34). -/
def registerField (width value : Nat) : Word16 := (BitVec.ofNat width value).setWidth 16

/-- A host read of the register view (10 R34); an index above 0x0B reads 0 (10 R35). -/
def readRegister (s : State) (index : Nat) : Word16 :=
  match index with
  | 0x00 => statusRegister s
  | 0x01 => registerField 9 s.rxCursor
  | 0x02 => registerField 9 s.txIndex
  | 0x03 => registerField 9 s.txSize
  | 0x04 => registerField 16 s.gapTimer
  | 0x05 => registerField 16 s.guardTimer
  | 0x06 => s.badCrcCount
  | 0x07 => registerField 16 s.feSeg
  | 0x08 => registerField 16 s.feOff
  | 0x09 => s.bwAddr
  | 0x0A => registerField 8 s.bwLen.toNat
  | 0x0B => registerField 8 s.uartFifo.length
  | _ => 0

/-- A host write to the register view has no effect (10 R35). -/
def writeRegister (_index : Nat) (_value : Word16) (s : State) : State := s

end Sys2Proof.Machine
end

