-- ==== Sys2Proof/Machine/Ops.lean ====
section
/-! DEFINITION. The named operations over the state: the buffer, the flash primitives, the reply composer, taking an
error and returning from it, boot, entering a reflash, reset. -/

namespace Sys2Proof.Machine

/-- The outcome of an event whose rule is `r`: its next state, or the model fault it met. -/
def finish : Except Fault State → Result
  | .ok s => .next s
  | .error f => .fault f

/-- `emit <record>` (00 R13). -/
def emit (r : Record) (s : State) : State := { s with hostLog := s.hostLog ++ [r] }

/-! ### Buffer writes (20 R51) -/

/-- `buf[i] <- b`; an index outside the buffer is `StateOverflow` (10 R20). -/
def bufStore (i : Nat) (b : Byte) (s : State) : Except Fault State :=
  if i < s.cfg.bufSize then .ok { s with buf := s.buf.store none i b } else .error .stateOverflow

/-- `buf[i ..] <- bytes`, in order. -/
def bufStores (i : Nat) : Bytes → State → Except Fault State
  | [], s => .ok s
  | b :: bs, s => do
    let s ← bufStore i b s
    bufStores (i + 1) bs s

/-! ### Flash primitives (20 R55 to R60) -/

/-- One byte of the flash array changes; an address outside it is refused as 20 R55 refuses a read (log 14). -/
def flashStore (a : Nat) (b : Byte) (s : State) : Except Fault State :=
  if InFlash s a 1 then .ok { s with flash := s.flash.store (some s.cfg.erasedByte) a b }
  else .error .flashRangeOutside

/-- Flash bytes from `a` on change to `bytes`. -/
def flashStores (a : Nat) : Bytes → State → Except Fault State
  | [], s => .ok s
  | b :: bs, s => do
    let s ← flashStore a b s
    flashStores (a + 1) bs s

/-- `FlashErase(a)` (20 R57): every byte of the segment that holds `a` becomes `ERASED_BYTE`. -/
def flashErase (a : Nat) (s : State) : Except Fault State :=
  if InFlash s (segmentBase s a) s.cfg.segSize then
    .ok { s with flash := s.flash.clear (segmentBase s a) s.cfg.segSize }
  else .error .flashRangeOutside

/-- What programming `new` over `old` leaves (20 R58, 92 D30). -/
def programByte (c : Config) (old new : Byte) : Byte :=
  match c.flashProgram with
  | .and => old &&& new
  | .overwrite => new

/-- `FlashWriteWord(a, w)` (20 R56, R58). -/
def flashWriteWord (a : Nat) (w : Word16) (s : State) : Except Fault State :=
  if a % 2 = 0 then
    flashStores a [programByte s.cfg (flashByte s a) (lo8 w), programByte s.cfg (flashByte s (a + 1)) (hi8 w)] s
  else .error .misalignedWordWrite

/-- `image_invalid(B)` (40 R114, 44 R201). -/
def imageInvalid (s : State) (base : Nat) : Except Fault Bool := do
  let body ← memRead s base (s.cfg.imageLen - 2)
  let word ← memRead16 s (base + (s.cfg.imageLen - 2))
  return s.cfg.crc body != word

/-! ### Checked writes (10 R20) -/

/-- `tx_index <- n`. -/
def setTxIndex (n : Nat) (s : State) : Except Fault State :=
  if n ≤ s.cfg.bufSize + 1 then .ok { s with txIndex := n } else .error .stateOverflow

/-- `fe_seg <- n`. -/
def setFeSeg (n : Nat) (s : State) : Except Fault State :=
  if n ≤ s.cfg.nseg then .ok { s with feSeg := n } else .error .stateOverflow

/-- `fe_off <- n`. -/
def setFeOff (n : Nat) (s : State) : Except Fault State :=
  if n ≤ max s.cfg.segSize 256 then .ok { s with feOff := n } else .error .stateOverflow

/-! ### The reply composer (42 R140 to R147) -/

/-- A composition in progress: the state and the write cursor `wc`, a local of the event. -/
structure Reply where
  st : State
  wc : Nat
  deriving DecidableEq, Repr

/-- `reply_start(code)` (42 R140). -/
def replyStart (code : Byte) (s : State) : Except Fault Reply := do
  let source ← bufByte s 0
  let s ← bufStores 0 [s.cfg.devAddr, source, code] s
  return ⟨s, 4⟩

/-- `check(k)` (42 R146). -/
def payloadCheck (k : Nat) (r : Reply) : Except Fault Reply :=
  if r.wc + k > 4 + r.st.cfg.maxPayload then .error .replyOverflow else .ok r

/-- `append_block(bytes)` (42 R145). -/
def appendBlock (bytes : Bytes) (r : Reply) : Except Fault Reply := do
  let r ← payloadCheck bytes.length r
  let s ← bufStores r.wc bytes r.st
  return ⟨s, r.wc + bytes.length⟩

/-- `append_byte(v)` (42 R141). -/
def appendByte (v : Byte) (r : Reply) : Except Fault Reply := appendBlock [v] r

/-- `append_word(w)`, low byte first (42 R142). -/
def appendWord (w : Word16) (r : Reply) : Except Fault Reply := appendBlock [lo8 w, hi8 w] r

/-- A string and its terminator (42 R143). -/
def terminated (str : Bytes) : Bytes := str ++ [0x00]

/-- `append_string(str)` (42 R143). -/
def appendString (str : Bytes) (r : Reply) : Except Fault Reply := appendBlock (terminated str) r

/-- `append_zeros(n)` (42 R144). -/
def appendZeros (n : Nat) (r : Reply) : Except Fault Reply := appendBlock (List.replicate n 0x00) r

/-- `finalize()` (42 R147). The length must fit a byte and `tx_size` its type (10 R20). -/
def finalize (r : Reply) : Except Fault State := do
  let len := r.wc + 2
  if 255 < len ∨ r.st.cfg.bufSize < len + 1 then .error .stateOverflow
  else
    let s ← bufStore 3 (BitVec.ofNat 8 len) r.st
    let covered ← bufBytes s 0 (len - 2)
    let s ← bufStores (len - 2) (s.cfg.crcField covered ++ [s.cfg.endByte]) s
    return { s with txSize := len + 2, txIndex := 0, txPhase := .pre, guardTimer := s.cfg.guardPreTicks }

/-- A whole composition: `reply_start(code)`, the payload, `finalize()`. -/
def reply (code : Byte) (payload : Bytes) (s : State) : Except Fault State := do
  let r ← replyStart code s
  let r ← appendBlock payload r
  finalize r

/-- A composition whose payload is a string: `reply_start(code)`, `append_string(str)`, `finalize()`. -/
def replyString (code : Byte) (str : Bytes) (s : State) : Except Fault State := do
  let r ← replyStart code s
  let r ← appendString str r
  finalize r

/-- A composition whose payload is one status byte (30 R89). -/
def replyStatus (status : Byte) (s : State) : Except Fault State := do
  let r ← replyStart s.cfg.ackCode s
  let r ← appendByte status r
  finalize r

/-! ### Taking an error and returning from it (60 R240 to R245, R250, R251) -/

/-- The class code of an error cause (60 R240). -/
def ErrorCause.classCode : ErrorCause → Nat
  | .shortLength | .badEnd | .foreign | .truncated => 1
  | .badFrameCrc => 2
  | .unknownPair | .emptyPayload | .malformedBlock => 3
  | .badAddress | .writeFailed | .badBackupCrc => 4
  | .dualImage => 5

/-- The receiver goes back to hunting, with one record (41 R128, R130). -/
def dropFrame (r : Record) (s : State) : State := emit r { s with rxActive := false, rxCursor := 0 }

/-- Taking an error: what each cause records and what the bus sees (60 R240). Nothing is saved and no mode changes
(60 R250). For a bad frame CRC `rx_ie` has been cleared by the frame check (41 R130). -/
def takeError (cause : ErrorCause) (s : State) : Except Fault State :=
  match cause with
  | .shortLength => .ok (dropFrame (.discard .shortLength) s)
  | .badEnd => .ok (dropFrame (.discard .badEnd) s)
  | .foreign => .ok (dropFrame (.discard .foreign) s)
  | .truncated => .ok (dropFrame .abandon s)
  | .badFrameCrc => reply s.cfg.nackCode [] (emit .crcReject { s with badCrcCount := s.badCrcCount + 1 })
  | .unknownPair => reply s.cfg.nackCode [] s
  | .emptyPayload => reply s.cfg.nackCode [] s
  | .malformedBlock => reply s.cfg.nackCode [] s
  | .badAddress => replyStatus s.cfg.stBadAddress s
  | .writeFailed => replyStatus s.cfg.stWriteFailed s
  | .badBackupCrc => replyStatus s.cfg.stBadCrc s
  | .dualImage => .ok { s with flashErr := true }

/-- The end of a reply: the driver is released, the frame state cleared and reception resumed (42 R153). It is where the
classes (b) to (d) are recovered from (60 R245). -/
def resumeReceiving (s : State) : State :=
  { s with
    txPhase := .idle
    txIe := false
    txIndex := 0
    txSize := 0
    rxActive := false
    rxCursor := 0
    gapTimer := 0
    rxIe := true }

/-! ### Boot, reflash, reset -/

/-- `boot()` (44 R204). -/
def boot (s : State) : State :=
  emit (.booted s.flashErr) { s with feState := .idle, booted := true, rxIe := true }

/-- Entering a copy at segment 0: `REFLASHING` (44 R207) or `SELF_HEAL` (44 R206). -/
def enterCopy (target : FeState) (s : State) : State :=
  { s with feState := target, feOp := .erase, feSeg := 0, feOff := 0 }

/-- Starting a block write (44 R214). -/
def startBlockWrite (addr : Word16) (len : Byte) (s : State) : State :=
  { s with
    feState := .blockWrite
    bwAddr := addr
    bwLen := len
    feOff := 0
    feOp := if addr.toNat % s.cfg.segSize = 0 then .erase else if 0 < len.toNat then .write else .verify }

/-- `read_status_snapshot()`: the draw and its record (10 R24). -/
def readStatusSnapshot (s : State) : Bytes × State :=
  ((drawSnapshot s).1, emit (.snap (drawSnapshot s).1) (drawSnapshot s).2)

/-- The reset values of 10 R39: every element but `flash`, `wire_out` and `host_log`. The output `poll_result` and the
model's own fields stay (log 9, 3). -/
def resetElements (s : State) : State :=
  { State.launch s.cfg s.flash with
    wireOut := s.wireOut
    hostLog := s.hostLog
    pollResult := s.pollResult
    script := s.script
    snapQueue := s.snapQueue
    draws := s.draws }

/-- The record cause of a RESET event (10 R23). -/
def resetCause : ResetSource → ResetCause
  | .powerOn => .powerOn
  | .external => .external
  | .watchdog => .watchdog

end Sys2Proof.Machine
end

