-- ==== Sys2Proof/Machine/Engine.lean ====
section
/-! DEFINITION. The flash engine (44_flash_engine.md): one micro-operation per FLASH_STEP. -/

namespace Sys2Proof.Machine

/-- STARTUP_CHECK, the bank selector (44 R202, R206). -/
def startupCheck (s : State) : Except Fault State := do
  let pbad ← imageInvalid s s.cfg.destBase
  let bbad ← imageInvalid s s.cfg.originBase
  let s := emit (.check pbad bbad) s
  match pbad, bbad with
  | true, false => return enterCopy .reflashing s
  | true, true => do
    let s ← takeError .dualImage s
    return boot s
  | false, true => return enterCopy .selfHeal s
  | false, false => return boot s

/-- Copy, ERASE micro-operation (44 R208). -/
def copyErase (s : State) : Except Fault State := do
  let s ← flashErase (copyDst s + s.feSeg * s.cfg.segSize) s
  return { s with feOp := .write, feOff := 0 }

/-- The end of a segment: the next segment's erase, or FINISH after the last (44 R209). -/
def copyAdvance (s : State) : Except Fault State :=
  if s.feOff = s.cfg.segSize then do
    let s ← setFeSeg (s.feSeg + 1) s
    return { s with feOff := 0, feOp := if s.feSeg < s.cfg.nseg then .erase else .finish }
  else return s

/-- The word of a copy goes to the destination, unless it equals the erased pattern (44 R209). -/
def copyWord (w : Word16) (s : State) : Except Fault State :=
  if w = s.cfg.erasedWord then .ok s else flashWriteWord (copyDst s + copyOffset s) w s

/-- Copy, WRITE micro-operation (44 R209). -/
def copyWrite (s : State) : Except Fault State := do
  let w ← memRead16 s (copySrc s + copyOffset s)
  let s ← copyWord w s
  let s ← setFeOff (s.feOff + 2) s
  copyAdvance s

/-- REFLASHING, FINISH: the watchdog reset is armed (44 R210). -/
def reflashFinish (s : State) : State := { s with feState := .rebooted }

/-- What an image check that must pass leaves: the error class (e) when it fails (60 R240). -/
def checkedImage (bad : Bool) (s : State) : Except Fault State := if bad then takeError .dualImage s else .ok s

/-- SELF_HEAL, FINISH: recheck the backup, then boot in any case (44 R212). -/
def selfHealFinish (s : State) : Except Fault State := do
  let bad ← imageInvalid s s.cfg.originBase
  let s ← checkedImage bad s
  return boot s

/-- BLOCK_WRITE, ERASE micro-operation (44 R215). -/
def blockErase (s : State) : Except Fault State := do
  let s ← flashErase s.bwAddr.toNat s
  return { s with feOp := if 0 < s.bwLen.toNat then .write else .verify }

/-- The high byte of a block's word at offset `i`, 0xFF past an odd length (44 R216). -/
def blockHighByte (s : State) (i : Nat) : Except Fault Byte :=
  if i + 1 < s.bwLen.toNat then bufByte s (8 + i + 1) else .ok 0xFF

/-- BLOCK_WRITE, WRITE micro-operation (44 R216). -/
def blockWriteWord (s : State) : Except Fault State := do
  let i := s.feOff
  let lo ← bufByte s (8 + i)
  let hi ← blockHighByte s i
  let s ← flashWriteWord (s.bwAddr.toNat + i) (le16 lo hi) s
  let s ← setFeOff (i + 2) s
  return { s with feOp := if s.bwLen.toNat ≤ i + 2 then .verify else .write }

/-- BLOCK_WRITE, VERIFY micro-operation: compare the data bytes, then reply (44 R217). -/
def blockVerify (s : State) : Except Fault State := do
  let written ← memRead s s.bwAddr.toNat s.bwLen.toNat
  let sent ← bufBytes s 8 s.bwLen.toNat
  let s := { s with feState := .idle }
  if written = sent then replyStatus s.cfg.stOk s else takeError .writeFailed s

/-- FLASH_STEP (44 R203, R205). A pair of `fe_state` and `fe_op` that the rule does not list is `EngineState`. -/
def execFlashStep (s : State) : Result :=
  match s.feState, s.feOp with
  | .startupCheck, _ => finish (startupCheck s)
  | .selfHeal, .erase => finish (copyErase s)
  | .selfHeal, .write => finish (copyWrite s)
  | .selfHeal, .finish => finish (selfHealFinish s)
  | .selfHeal, .verify => .fault .engineState
  | .reflashing, .erase => finish (copyErase s)
  | .reflashing, .write => finish (copyWrite s)
  | .reflashing, .finish => .next (reflashFinish s)
  | .reflashing, .verify => .fault .engineState
  | .blockWrite, .erase => finish (blockErase s)
  | .blockWrite, .write => finish (blockWriteWord s)
  | .blockWrite, .verify => finish (blockVerify s)
  | .blockWrite, .finish => .fault .engineState
  | .idle, _ => .next s
  | .rebooted, _ => .next s

end Sys2Proof.Machine
end

