-- ==== Sys2Proof/Machine/Power.lean ====
section
/-! DEFINITION. Reset and power failure (70_reset_and_hazards.md): RESET and POWER_FAIL. -/

namespace Sys2Proof.Machine

/-- RESET(c) (70 R270). RESET(WATCHDOG) is enabled only in REBOOTED (44 R211). -/
def execReset (c : ResetSource) (s : State) : Result :=
  if ResetEnabled c s then .next (emit (.reset (resetCause c)) (resetElements s)) else .next s

/-- The drawn bytes land on the target of the interrupted micro-operation, then the reset (70 R272). -/
def powerFail (d : Bytes) (s : State) : Except Fault State := do
  let s ← flashStores (pfTarget s).1 (drawBytes (pfTarget s).2 d s).1 (drawBytes (pfTarget s).2 d s).2
  return emit (.reset .powerFail) (resetElements s)

/-- POWER_FAIL(d), enabled in every state (70 R272). -/
def execPowerFail (d : Bytes) (s : State) : Result := finish (powerFail d s)

end Sys2Proof.Machine
end

