-- ==== Sys2Proof/Machine/Router.lean ====
section
/-! DEFINITION. The command router (43_dispatch.md): one meaning per frame row, and `route`, which applies the row a
validated frame decodes to. On entry the frame is in `buf` and `rx_ie` = 0 (43 R170); a reply goes to `buf[0]`. -/

namespace Sys2Proof.Machine

/-- The degraded reply: NACK and "Bad CRC" with its terminator (43 R171). -/
def degradedReply (s : State) : Except Fault State := replyString s.cfg.nackCode Config.badCrcText s

/-- An identity string: ACK, the string and its terminator (43 R173). -/
def identityReply (str : Bytes) (s : State) : Except Fault State := replyString s.cfg.ackCode str s

/-- The status snapshot: the draw, its record, and an ACK that carries it (43 R176). -/
def snapshotReply (s : State) : Except Fault State :=
  reply s.cfg.ackCode (readStatusSnapshot s).1 (readStatusSnapshot s).2

/-- DEGRADED_READ (43 R171). -/
def execDegradedRead (_payload : Bytes) (s : State) : Result := finish (degradedReply s)

/-- `apply_actuator_controls` for a degraded WRITE_THEN_READ of control/status; nothing for another location or an empty
payload (43 R171). -/
def degradedControls (payload : Bytes) (s : State) : State :=
  match payload with
  | loc :: ctrl => if loc = s.cfg.locControlStatus then emit (.ctrl ctrl) s else s
  | [] => s

/-- DEGRADED_WRITE_THEN_READ (43 R171). -/
def execDegradedWriteThenRead (payload : Bytes) (s : State) : Result :=
  finish (degradedReply (degradedControls payload s))

/-- EMPTY_PAYLOAD (43 R172). -/
def execEmptyPayload (_cmd : Byte) (s : State) : Result := finish (takeError .emptyPayload s)

/-- READ_FW_ID (43 R173). -/
def execReadFwId (_extra : Bytes) (s : State) : Result := finish (identityReply s.cfg.fwIdStr s)

/-- READ_COMPILER (43 R174). -/
def execReadCompiler (_extra : Bytes) (s : State) : Result := finish (identityReply s.cfg.compilerStr s)

/-- READ_TARGET (43 R175). -/
def execReadTarget (_extra : Bytes) (s : State) : Result := finish (identityReply s.cfg.targetStr s)

/-- READ_CONTROL_STATUS (43 R176). -/
def execReadControlStatus (_extra : Bytes) (s : State) : Result := finish (snapshotReply s)

/-- WRITE_CONTROL_STATUS (43 R177). -/
def execWriteControlStatus (ctrl : Bytes) (s : State) : Result :=
  finish (reply s.cfg.ackCode [] (emit (.ctrl ctrl) s))

/-- WRITE_THEN_READ_CONTROL_STATUS: the controls first, then the snapshot (43 R178). -/
def execWriteThenReadControlStatus (ctrl : Bytes) (s : State) : Result :=
  finish (snapshotReply (emit (.ctrl ctrl) s))

/-- WRITE_FW_BLOCK, the block-write arbiter: a malformed size, a rejected address, or the start of the block write
(43 R179, 44 R214). -/
def execWriteFwBlock (block : Bytes) (s : State) : Result :=
  match blockFields block with
  | none => finish (takeError .malformedBlock s)
  | some (addr, len, _data) =>
    if BlockAddressOk s.cfg addr len then .next (startBlockWrite addr len s)
    else finish (takeError .badAddress s)

/-- The reflash trigger: refused when the backup is invalid, else `REFLASHING` with no reply (43 R180, 44 R207). -/
def reflashTrigger (s : State) : Except Fault State := do
  let bad ← imageInvalid s s.cfg.originBase
  if bad then takeError .badBackupCrc s else return enterCopy .reflashing s

/-- WRITE_REFLASH (43 R180). -/
def execWriteReflash (_extra : Bytes) (s : State) : Result := finish (reflashTrigger s)

/-- UNKNOWN_PAIR (43 R181). -/
def execUnknownPair (_cmd _loc : Byte) (_rest : Bytes) (s : State) : Result := finish (takeError .unknownPair s)

/-- The router: apply the row a validated frame decodes to (43 R170). The frame decoder gives no event row. -/
def route (i : Instr) (s : State) : Result :=
  match i with
  | .degradedRead payload => execDegradedRead payload s
  | .degradedWriteThenRead payload => execDegradedWriteThenRead payload s
  | .emptyPayload cmd => execEmptyPayload cmd s
  | .readFwId extra => execReadFwId extra s
  | .readCompiler extra => execReadCompiler extra s
  | .readTarget extra => execReadTarget extra s
  | .readControlStatus extra => execReadControlStatus extra s
  | .writeControlStatus ctrl => execWriteControlStatus ctrl s
  | .writeThenReadControlStatus ctrl => execWriteThenReadControlStatus ctrl s
  | .writeFwBlock block => execWriteFwBlock block s
  | .writeReflash extra => execWriteReflash extra s
  | .unknownPair cmd loc rest => execUnknownPair cmd loc rest s
  | .rxByte _ | .tick | .poll | .txReady | .uartShiftOut | .flashStep | .reset _ | .powerFail _ =>
    .refused .notFrameCommand

end Sys2Proof.Machine
end

