-- ==== Sys2Proof/Machine/Receive.lean ====
section
/-! DEFINITION. The frame receiver (41_receive.md): RX_BYTE, TICK and POLL. -/

namespace Sys2Proof.Machine

/-- A byte accepted while receiving: stored while there is room, and the gap timer rearmed in any case (41 R123). -/
def acceptByte (b : Byte) (s : State) : Except Fault State :=
  if s.rxCursor < s.cfg.bufSize then do
    let s ← bufStore s.rxCursor b s
    return { s with rxCursor := s.rxCursor + 1, gapTimer := s.cfg.gapTicks }
  else return { s with gapTimer := s.cfg.gapTicks }

/-- RX_BYTE(b) (41 R123). -/
def execRxByte (b : Byte) (s : State) : Result :=
  if gie s = true ∧ s.rxIe = true then
    if s.rxActive then finish (acceptByte b s)
    else if b = s.cfg.startByte then .next { s with rxActive := true, rxCursor := 0, gapTimer := s.cfg.gapTicks }
    else .next s
  else .next s

/-- TICK: both timers count down and saturate at 0, while `gie` = 1 (41 R125). -/
def execTick (s : State) : Result :=
  if gie s then .next { s with gapTimer := s.gapTimer - 1, guardTimer := s.guardTimer - 1 } else .next s

/-- POLL step 1, housekeeping (41 R128). -/
def housekeeping (s : State) : Except Fault State :=
  if s.txPhase = .idle ∧ s.rxActive = true ∧ s.gapTimer = 0 then do
    let complete ← frameComplete s
    if complete then return s else takeError .truncated s
  else return s

/-- POLL step 2, turnaround sequencing: PRE to XMIT and POST to IDLE (41 R129, 42 R152, R153). -/
def turnaround (s : State) : State :=
  match s.txPhase with
  | .pre => if s.guardTimer = 0 then { s with txPhase := .xmit, txIe := true } else s
  | .post => if s.guardTimer = 0 ∧ s.uartFifo = [] then resumeReceiving s else s
  | .idle | .xmit => s

/-- A frame that passed every check: the record FRAME, `poll_result` 1, and the router (41 R131). -/
def dispatchFrame (source cmd : Byte) (payload : Bytes) (i : Instr) (s : State) : Result :=
  route i (emit (.frame source cmd payload) { s with pollResult := true })

/-- What POLL does with what the frame check found (41 R130, R131). `frame` is `buf[0 .. length + 1)` of a complete
frame, and otherwise its header. -/
def answerFrame (frame : Bytes) (s : State) : Result :=
  match decodeFrame s.cfg s.flashErr frame with
  | .error .shortLength => finish (takeError .shortLength s)
  | .error .badEnd => finish (takeError .badEnd s)
  | .error .foreign => finish (takeError .foreign s)
  | .error .badCrc => finish (takeError .badFrameCrc { s with rxIe := false })
  | .error _ => .next s
  | .ok i =>
    dispatchFrame (frame.getD 0 0) (frame.getD 2 0) ((frame.drop 4).take (frame.length - 7)) i { s with rxIe := false }

/-- How many bytes of `buf` the frame check reads: the frame to its END byte once it is complete, and otherwise only its
header (41 R130). -/
def frameExtent (s : State) (len : Byte) : Nat :=
  if len.toNat < 6 ∨ s.rxCursor < len.toNat + 1 then 4 else len.toNat + 1

/-- POLL step 3, the frame check (41 R130), once the length byte has arrived. -/
def frameCheck (s : State) : Result :=
  if s.txPhase = .idle ∧ s.rxActive = true ∧ 4 ≤ s.rxCursor then
    match bufByte s 3 with
    | .error f => .fault f
    | .ok len =>
      match bufBytes s 0 (frameExtent s len) with
      | .error f => .fault f
      | .ok frame => answerFrame frame s
  else .next s

/-- POLL (41 R126, R127): the three steps in order, with `poll_result` 0 unless step 3 dispatches a frame. -/
def execPoll (s : State) : Result :=
  if PollEnabled s then
    match housekeeping { s with pollResult := false } with
    | .error f => .fault f
    | .ok s => frameCheck (turnaround s)
  else .next s

end Sys2Proof.Machine
end

