-- ==== Sys2Proof/Machine/Transmit.lean ====
section
/-! DEFINITION. The transmitter's events (42_transmit.md): TX_READY and UART_SHIFT_OUT. -/

namespace Sys2Proof.Machine

/-- Wire byte `k` of the pending reply: START, then the buffer (42 R148). -/
def wireByte (s : State) (k : Nat) : Except Fault Byte :=
  match k with
  | 0 => .ok s.cfg.startByte
  | k + 1 => bufByte s k

/-- After the last byte has been handed to the UART: XMIT to POST (42 R150). -/
def endTransmission (s : State) : State :=
  if s.txIndex = s.txSize then { s with txIe := false, txPhase := .post, guardTimer := s.cfg.guardPostTicks } else s

/-- One byte handed to the UART (42 R150). -/
def handOverByte (s : State) : Except Fault State := do
  let b ← wireByte s s.txIndex
  let s ← setTxIndex (s.txIndex + 1) { s with uartFifo := s.uartFifo ++ [b] }
  return endTransmission s

/-- TX_READY (42 R150). -/
def execTxReady (s : State) : Result :=
  if TxReadyEnabled s then finish (handOverByte s) else .next s

/-- UART_SHIFT_OUT: the oldest byte leaves for the bus; not gated by `gie` (42 R151). -/
def execUartShiftOut (s : State) : Result :=
  match s.uartFifo with
  | [] => .next s
  | b :: rest => .next { s with uartFifo := rest, wireOut := s.wireOut ++ [b] }

end Sys2Proof.Machine
end

