-- ==== Sys2Proof/Machine/Dispatch.lean ====
section
/-! DEFINITION. The meaning of every instruction: one arm per constructor of Instr. -/

namespace Sys2Proof.Machine

def exec (i : Instr) (s : State) : Host.Outcome State Fault Refusal :=
  match i with
  | .degradedRead payload => Sys2Proof.Machine.execDegradedRead payload s
  | .degradedWriteThenRead payload => Sys2Proof.Machine.execDegradedWriteThenRead payload s
  | .emptyPayload cmd => Sys2Proof.Machine.execEmptyPayload cmd s
  | .readFwId extra => Sys2Proof.Machine.execReadFwId extra s
  | .readCompiler extra => Sys2Proof.Machine.execReadCompiler extra s
  | .readTarget extra => Sys2Proof.Machine.execReadTarget extra s
  | .readControlStatus extra => Sys2Proof.Machine.execReadControlStatus extra s
  | .writeControlStatus ctrl => Sys2Proof.Machine.execWriteControlStatus ctrl s
  | .writeThenReadControlStatus ctrl => Sys2Proof.Machine.execWriteThenReadControlStatus ctrl s
  | .writeFwBlock block => Sys2Proof.Machine.execWriteFwBlock block s
  | .writeReflash extra => Sys2Proof.Machine.execWriteReflash extra s
  | .unknownPair cmd loc rest => Sys2Proof.Machine.execUnknownPair cmd loc rest s
  | .rxByte b => Sys2Proof.Machine.execRxByte b s
  | .tick => Sys2Proof.Machine.execTick s
  | .poll => Sys2Proof.Machine.execPoll s
  | .txReady => Sys2Proof.Machine.execTxReady s
  | .uartShiftOut => Sys2Proof.Machine.execUartShiftOut s
  | .flashStep => Sys2Proof.Machine.execFlashStep s
  | .reset c => Sys2Proof.Machine.execReset c s
  | .powerFail d => Sys2Proof.Machine.execPowerFail d s

end Sys2Proof.Machine
end

