-- ==== Sys2Proof/Machine/Schedule.lean ====
section
/-! DEFINITION. Which event comes next, and how a frame command is put where the next step runs it. -/

namespace Sys2Proof.Machine

/-- The next event of the script and the state once it is taken from it (30 R98, R99). SNAP queues its bytes and is no
event; DRAIN and FLASH stay at the head until their condition ends. With no stimulus queued the environment's choice is
a free value (60 R249, log 3). -/
def takeEvent (s : State) : List Stimulus → Event × State
  | [] => (Config.freeEvent s.draws, { s with script := [], draws := s.draws + 1 })
  | .event e :: rest => (e, { s with script := rest })
  | .snap bytes :: rest => takeEvent { s with snapQueue := s.snapQueue ++ [bytes] } rest
  | .drain :: rest =>
    if TxReadyEnabled s then (.txReady, { s with script := .drain :: rest })
    else if s.uartFifo ≠ [] then (.uartShiftOut, { s with script := .drain :: rest })
    else takeEvent s rest
  | .flash :: rest =>
    if s.feState ≠ .idle ∧ s.feState ≠ .rebooted then (.flashStep, { s with script := .flash :: rest })
    else takeEvent s rest

/-- The event the next step takes. -/
def nextEvent (s : State) : Event × State := takeEvent s s.script

/-- A complete frame in the buffer of a booted, idle, receiving block, and a POLL as the next event: the next step runs
the frame's command (log 13). `flash_err`, the flash, the histories and the counters stay. -/
def placeFrame (frame : Bytes) (s : State) : State :=
  { s with
    buf := s.buf.storeAll none 0 frame
    rxActive := true
    rxCursor := frame.length
    rxIe := true
    txPhase := .idle
    feState := .idle
    booted := true
    script := [.event .poll] }

end Sys2Proof.Machine
end

