-- ==== Sys2Proof/Machine/Step.lean ====
section
/-! DEFINITION. One step: an admitted configuration takes its next event; any other is refused (00 R8, R11). -/

namespace Sys2Proof.Machine

def step (s : State) : Host.Outcome State Fault Refusal :=
  if s.cfg.Admitted then exec (nextEvent s).1.instr (nextEvent s).2 else .refused .configRefused

/-- The frame of a table key placed where the next step runs its command. -/
def State.withFetchWord (s : State) (nbits w : Nat) : State := placeFrame (keyFrame s.cfg nbits w) s

end Sys2Proof.Machine
end

