-- ==== Sys2Proof/Laws/Memory.lean ====
section
/-! SUPPORT. The laws of the byte memory: a read after a write, writes that commute, and the canonical form. -/

namespace Sys2Proof.Machine.Memory

theorem find?_insert_same (a : Nat) (b : Byte) (m : Memory) : (insert a b m).find? a = some b := by
  induction m with
  | nil => simp [insert, find?]
  | cons c rest ih =>
    obtain ⟨k, v⟩ := c
    simp only [insert]
    split
    · simp [find?]
    · split
      · simp [find?]
      · rename_i h
        simp [find?, h, ih]

theorem find?_insert_other {a x : Nat} (h : x ≠ a) (b : Byte) (m : Memory) : (insert a b m).find? x = m.find? x := by
  induction m with
  | nil => simp [insert, find?, Ne.symm h]
  | cons c rest ih =>
    obtain ⟨k, v⟩ := c
    simp only [insert]
    split
    · simp [find?, Ne.symm h]
    · split
      · rename_i hk
        subst hk
        simp [find?, Ne.symm h]
      · simp only [find?, ih]

theorem find?_insert (a x : Nat) (b : Byte) (m : Memory) :
    (insert a b m).find? x = if x = a then some b else m.find? x := by
  split
  · rename_i h
    rw [h, find?_insert_same]
  · rename_i h
    exact find?_insert_other h b m

theorem find?_clear (a n x : Nat) (m : Memory) :
    (clear a n m).find? x = if a ≤ x ∧ x < a + n then none else m.find? x := by
  induction m with
  | nil => simp [clear, find?]
  | cons c rest ih =>
    obtain ⟨k, v⟩ := c
    have hc : clear a n ((k, v) :: rest) = if a ≤ k ∧ k < a + n then clear a n rest else (k, v) :: clear a n rest := by
      simp only [clear, List.filter_cons, Bool.not_eq_true', Bool.and_eq_false_iff, decide_eq_false_iff_not]
      by_cases h : a ≤ k ∧ k < a + n
      · rw [if_pos h, if_neg (by omega)]
      · rw [if_neg h, if_pos (by omega)]
    rw [hc]
    by_cases h : a ≤ k ∧ k < a + n
    · rw [if_pos h, ih]
      by_cases hx : k = x
      · subst hx
        simp [h]
      · simp [find?, hx]
    · rw [if_neg h]
      simp only [find?]
      by_cases hx : k = x
      · subst hx
        simp [h]
      · simp [hx, ih]

/-- What a memory with that reading of unlisted addresses holds at `x` after a store. -/
theorem find?_store (u : Option Byte) (a x : Nat) (b : Byte) (m : Memory) :
    (store u a b m).find? x = if x = a then (if u = some b then none else some b) else m.find? x := by
  simp only [store]
  by_cases hb : u = some b
  · rw [if_pos hb, find?_clear]
    by_cases hx : x = a
    · subst hx
      simp [hb]
    · rw [if_neg hx, if_neg]
      omega
  · rw [if_neg hb, find?_insert]
    simp [hb]

theorem find?_store_none (a x : Nat) (b : Byte) (m : Memory) :
    (store none a b m).find? x = if x = a then some b else m.find? x := by
  rw [find?_store]
  simp

/-- A read with a default for unlisted addresses gives the byte stored. -/
theorem getD_find?_store (d : Byte) (a x : Nat) (b : Byte) (m : Memory) :
    ((store (some d) a b m).find? x).getD d = if x = a then b else (m.find? x).getD d := by
  rw [find?_store]
  by_cases hx : x = a
  · by_cases hb : some d = some b
    · simp only [Option.some.injEq] at hb
      simp [hx, hb]
    · simp only [Option.some.injEq] at hb
      simp [hx, hb]
  · simp [hx]

theorem storeAll_append (u : Option Byte) (a : Nat) (xs ys : Bytes) (m : Memory) :
    storeAll u a (xs ++ ys) m = storeAll u (a + xs.length) ys (storeAll u a xs m) := by
  induction xs generalizing a m with
  | nil => simp [storeAll]
  | cons b bs ih => simp [storeAll, ih, Nat.add_assoc, Nat.add_comm]

theorem find?_storeAll_other {u : Option Byte} {a x : Nat} (bs : Bytes) (m : Memory)
    (h : x < a ∨ a + bs.length ≤ x) : (storeAll u a bs m).find? x = m.find? x := by
  induction bs generalizing a m with
  | nil => rfl
  | cons b bs ih =>
    simp only [List.length_cons] at h
    rw [storeAll, ih _ (by omega), find?_store, if_neg (by omega)]

theorem find?_storeAll_none {a k : Nat} (bs : Bytes) (m : Memory) (h : k < bs.length) :
    (storeAll none a bs m).find? (a + k) = some bs[k] := by
  induction bs generalizing a k m with
  | nil => simp at h
  | cons b bs ih =>
    rw [storeAll]
    cases k with
    | zero => rw [Nat.add_zero, find?_storeAll_other _ _ (by omega), find?_store_none]; simp
    | succ k =>
      have := @ih (a + 1) k (store none a b m) (by simpa using h)
      rw [show a + (k + 1) = a + 1 + k by omega, this]
      simp

theorem getD_find?_storeAll (d : Byte) (a x : Nat) (bs : Bytes) (m : Memory) :
    ((storeAll (some d) a bs m).find? x).getD d =
      if a ≤ x ∧ x < a + bs.length then bs.getD (x - a) 0 else (m.find? x).getD d := by
  induction bs generalizing a m with
  | nil => simp [storeAll]
  | cons b bs ih =>
    rw [storeAll, ih, getD_find?_store]
    simp only [List.length_cons]
    by_cases hx : x = a
    · subst hx
      simp
    · rw [if_neg hx]
      by_cases hr : a + 1 ≤ x ∧ x < a + 1 + bs.length
      · rw [if_pos hr, if_pos (by omega), show x - a = x - (a + 1) + 1 by omega, List.getD_cons_succ]
      · rw [if_neg hr, if_neg (by omega)]

/-! ### Writes to different addresses commute -/

theorem insert_comm {j k : Nat} (h : j < k) (v w : Byte) (m : Memory) :
    insert j v (insert k w m) = insert k w (insert j v m) := by
  induction m with
  | nil => simp only [insert, if_pos h, if_neg (by omega : ¬k < j), if_neg (by omega : ¬j = k)]
  | cons c rest ih =>
    obtain ⟨a, b⟩ := c
    by_cases h1 : k < a
    · simp only [insert, if_pos h1, if_pos h, if_pos (Nat.lt_trans h h1), if_neg (by omega : ¬k < j), if_neg (by omega : ¬j = k)]
    · by_cases h2 : a = k
      · subst h2
        simp only [insert, if_neg h1, if_pos h, if_true, if_neg (by omega : ¬a < j), if_neg (by omega : ¬j = a)]
      · by_cases h3 : j < a
        · simp only [insert, if_neg h1, if_neg h2, if_pos h3, if_neg (by omega : ¬k < j), if_neg (by omega : ¬j = k)]
        · by_cases h4 : a = j
          · subst h4
            simp only [insert, if_neg h1, if_neg h2, if_neg h3, if_true]
          · simp only [insert, if_neg h1, if_neg h2, if_neg h3, if_neg h4, ih]

theorem insert_insert (a : Nat) (v w : Byte) (m : Memory) : insert a v (insert a w m) = insert a v m := by
  induction m with
  | nil => simp [insert]
  | cons c rest ih =>
    obtain ⟨k, b⟩ := c
    by_cases h1 : a < k
    · simp [insert, h1]
    · by_cases h2 : k = a
      · subst h2
        simp [insert]
      · simp [insert, h1, h2, ih]

theorem store_none_comm {j k : Nat} (h : j ≠ k) (v w : Byte) (m : Memory) :
    store none j v (store none k w m) = store none k w (store none j v m) := by
  simp only [store, reduceCtorEq, if_false]
  rcases Nat.lt_or_gt_of_ne h with h | h
  · exact insert_comm h v w m
  · exact (insert_comm h w v m).symm

theorem store_none_storeAll {j a : Nat} (bs : Bytes) (h : j < a) (v : Byte) (m : Memory) :
    store none j v (storeAll none a bs m) = storeAll none a bs (store none j v m) := by
  induction bs generalizing a m with
  | nil => rfl
  | cons b bs ih => rw [storeAll, storeAll, ih (by omega), store_none_comm (by omega)]

/-! ### The canonical form -/

theorem insert_mem {a : Nat} {b : Byte} {m : Memory} {c : Host.Cell} (h : c ∈ insert a b m) : c = (a, b) ∨ c ∈ m := by
  induction m with
  | nil => simpa [insert] using h
  | cons d rest ih =>
    obtain ⟨k, v⟩ := d
    simp only [insert] at h
    split at h
    · simpa using h
    · split at h
      · rcases List.mem_cons.1 h with h | h
        · exact .inl h
        · exact .inr (List.mem_cons_of_mem _ h)
      · rcases List.mem_cons.1 h with h | h
        · exact .inr (by simp [h])
        · rcases ih h with h | h
          · exact .inl h
          · exact .inr (List.mem_cons_of_mem _ h)

theorem insert_rising (a : Nat) (b : Byte) {m : Memory} (h : m.Pairwise (fun x y => x.1 < y.1)) :
    (insert a b m).Pairwise (fun x y => x.1 < y.1) := by
  induction m with
  | nil => simp [insert]
  | cons c rest ih =>
    obtain ⟨k, v⟩ := c
    obtain ⟨hk, hr⟩ := List.pairwise_cons.1 h
    simp only [insert]
    split
    · rename_i hak
      refine List.pairwise_cons.2 ⟨?_, h⟩
      intro d hd
      rcases List.mem_cons.1 hd with rfl | hd
      · exact hak
      · exact Nat.lt_trans hak (hk d hd)
    · split
      · rename_i hka
        subst hka
        exact List.pairwise_cons.2 ⟨hk, hr⟩
      · refine List.pairwise_cons.2 ⟨?_, ih hr⟩
        intro d hd
        rcases insert_mem hd with rfl | hd
        · show k < a
          omega
        · exact hk d hd

theorem clear_wf {u : Option Byte} (a n : Nat) {m : Memory} (h : wf u m) : wf u (clear a n m) :=
  ⟨h.1.sublist List.filter_sublist, fun c hc => h.2 c (List.mem_filter.1 hc).1⟩

theorem store_wf {u : Option Byte} (a : Nat) (b : Byte) {m : Memory} (h : wf u m) : wf u (store u a b m) := by
  simp only [store]
  split
  · exact clear_wf a 1 h
  · rename_i hb
    refine ⟨insert_rising a b h.1, fun c hc => ?_⟩
    rcases insert_mem hc with rfl | hc
    · exact fun e => hb e.symm
    · exact h.2 c hc

theorem storeAll_wf {u : Option Byte} (a : Nat) (bs : Bytes) {m : Memory} (h : wf u m) : wf u (storeAll u a bs m) := by
  induction bs generalizing a m with
  | nil => exact h
  | cons b bs ih => exact ih (a + 1) (store_wf a b h)

/-- Every cell of a memory after a store is the stored one or was there before. -/
theorem store_mem {u : Option Byte} {a : Nat} {b : Byte} {m : Memory} {c : Host.Cell} (h : c ∈ store u a b m) :
    c = (a, b) ∨ c ∈ m := by
  simp only [store] at h
  split at h
  · exact .inr (List.mem_filter.1 h).1
  · exact insert_mem h

theorem storeAll_key {u : Option Byte} {a : Nat} {bs : Bytes} {m : Memory} {c : Host.Cell}
    (h : c ∈ storeAll u a bs m) : (a ≤ c.1 ∧ c.1 < a + bs.length) ∨ c ∈ m := by
  induction bs generalizing a m with
  | nil => exact .inr h
  | cons b bs ih =>
    rcases ih h with h | h
    · left
      simp only [List.length_cons]
      omega
    · rcases store_mem h with rfl | h
      · left
        simp
      · exact .inr h

end Sys2Proof.Machine.Memory
end

