-- ==== Sys2Proof/Safety.lean ====
section
/-! DEFINITION. The terms the statements use: what the buffer holds, the state a composed reply leaves, the invariant of
10 R38 with what makes it inductive, the copy engines' progress, and a run of FLASH_STEPs. -/

namespace Sys2Proof.Machine

/-- The bytes of `buf[i .. i + n)` have been written since reset. -/
abbrev Written (s : State) (i n : Nat) : Prop := ∀ k < n, (s.buf.find? (i + k)).isSome = true

/-- `buf[i ..]` holds `bytes`. -/
abbrev BufHolds (s : State) (i : Nat) (bytes : Bytes) : Prop :=
  ∀ k (h : k < bytes.length), s.buf.find? (i + k) = some bytes[k]

/-- The state once a reply to `source` is composed and finalized: the frame of 30 R80 to R86 in `buf`, and the
pre-turnaround delay armed (42 R140 to R147). -/
def replied (code source : Byte) (payload : Bytes) (s : State) : State :=
  { s with
    buf := s.buf.storeAll none 0 (frameImage s.cfg s.cfg.devAddr source code payload)
    txSize := payload.length + 8
    txIndex := 0
    txPhase := .pre
    guardTimer := s.cfg.guardPreTicks }

/-- The six clauses of 10 R38. -/
structure ReachableClauses (s : State) : Prop where
  listens_only_when_idle : s.rxIe = true → s.txPhase = .idle
  idle_block_listens : s.booted = true → s.feState = .idle → s.txPhase = .idle → s.rxIe = true
  shifting_drives : s.booted = true → s.uartFifo ≠ [] → de s = true
  block_write_is_deaf_and_silent : s.feState = .blockWrite → s.rxIe = false ∧ s.txPhase = .idle
  hunting_cursor : s.rxActive = false → s.rxCursor = 0
  unbooted_states : s.booted = false →
    s.feState = .startupCheck ∨ s.feState = .selfHeal ∨ s.feState = .reflashing ∨ s.feState = .rebooted

/-- Every element has a value of its type (10 R20 to R22, R29, R33). -/
structure InTypes (s : State) : Prop where
  buf_form : s.buf.wf none
  buf_range : ∀ c ∈ s.buf, c.1 < s.cfg.bufSize
  rx_cursor : s.rxCursor ≤ s.cfg.bufSize
  gap_timer : s.gapTimer ≤ s.cfg.gapTicks
  tx_index : s.txIndex ≤ s.cfg.bufSize + 1
  tx_size : s.txSize ≤ s.cfg.bufSize + 1
  guard_timer : s.guardTimer ≤ max s.cfg.guardPreTicks s.cfg.guardPostTicks
  uart_fifo : s.uartFifo.length ≤ s.cfg.uartDepth
  fe_seg : s.feSeg ≤ s.cfg.nseg
  fe_off : s.feOff ≤ max s.cfg.segSize 256
  flash_form : s.flash.wf (some s.cfg.erasedByte)
  flash_range : ∀ c ∈ s.flash, s.cfg.flashBase ≤ c.1 ∧ c.1 < s.cfg.flashEnd

/-- Where a copy stands: erasing or writing a segment of the image, or past the last one (44 R208, R209). -/
abbrev CopyPosition (s : State) : Prop :=
  (s.feOp = .erase ∧ s.feSeg < s.cfg.nseg) ∨
  (s.feOp = .write ∧ s.feSeg < s.cfg.nseg ∧ s.feOff < s.cfg.segSize ∧ s.feOff % 2 = 0) ∨
  (s.feOp = .finish ∧ s.feSeg = s.cfg.nseg)

/-- A block write in progress: the arbiter's guarantee (44 R213), the request still in `buf`, and where it stands. -/
structure BlockPosition (s : State) : Prop where
  booted : s.booted = true
  address : BlockAddressOk s.cfg s.bwAddr s.bwLen
  length : s.bwLen.toNat ≤ 245
  request : Written s 0 (8 + s.bwLen.toNat)
  op : (s.feOp = .erase ∧ s.bwAddr.toNat % s.cfg.segSize = 0 ∧ s.feOff = 0) ∨
    (s.feOp = .write ∧ s.feOff < s.bwLen.toNat ∧ s.feOff % 2 = 0) ∨ s.feOp = .verify

/-- A reply pending or being sent: every wire byte of it is in `buf` (42 R148). -/
structure ReplyPending (s : State) : Prop where
  engine : s.booted = true ∧ s.feState = .idle
  index : s.txIndex ≤ s.txSize
  unsent : s.txPhase ≠ .post → s.txIndex < s.txSize
  frame : Written s 0 (s.txSize - 1)

/-- The invariant: an admitted configuration, types, the clauses of 10 R38, and what makes them hold after every step. -/
structure Inv (s : State) : Prop where
  admitted : s.cfg.Admitted
  types : InTypes s
  clauses : ReachableClauses s
  listening : s.rxIe = true → s.booted = true ∧ s.feState = .idle
  received : Written s 0 s.rxCursor
  reply_pending : s.txPhase ≠ .idle → ReplyPending s
  tx_enable : s.txIe = true → s.txPhase = .xmit
  fifo_phase : s.uartFifo ≠ [] → s.txPhase = .xmit ∨ s.txPhase = .post
  booted_states : s.booted = true → s.feState ≠ .startupCheck ∧ s.feState ≠ .selfHeal
  copy : s.feState = .selfHeal ∨ s.feState = .reflashing → CopyPosition s
  block : s.feState = .blockWrite → BlockPosition s

/-- Flash programming can write any word over an erased one: erasing sets every bit, or programming overwrites
(20 R57, R58). -/
abbrev ProgramsErased (c : Config) : Prop := c.erasedByte = 0xFF ∨ c.flashProgram = .overwrite

/-- The first `n` bytes of the image copied to equal those of the image copied from. -/
abbrev CopiedUpTo (s : State) (src dst n : Nat) : Prop := ∀ k < n, flashByte s (dst + k) = flashByte s (src + k)

/-- The progress of a copy from `src` to `dst`: what is behind the engine is copied, and what is ahead of it in the
segment is erased (44 R208, R209). -/
abbrev CopyProgress (s : State) (src dst : Nat) : Prop :=
  CopiedUpTo s src dst (copyOffset s) ∧
  (s.feOp = .write → ∀ k, s.feOff ≤ k → k < s.cfg.segSize →
    flashByte s (dst + (s.feSeg * s.cfg.segSize + k)) = s.cfg.erasedByte)

/-- The copy engines' invariant: a reflash copies ORIGIN to DESTINATION, a self-heal DESTINATION to ORIGIN, and in
REBOOTED the whole of ORIGIN has been copied (44 R208 to R210). -/
structure CopyInv (s : State) : Prop where
  segment_start : s.feState = .selfHeal ∨ s.feState = .reflashing → s.feOp ≠ .write → s.feOff = 0
  reflash : s.feState = .reflashing → CopyProgress s s.cfg.originBase s.cfg.destBase
  self_heal : s.feState = .selfHeal → CopyProgress s s.cfg.destBase s.cfg.originBase
  rebooted : s.feState = .rebooted → CopiedUpTo s s.cfg.originBase s.cfg.destBase s.cfg.imageLen

/-- A run of events, stopping at the first that does not answer a next state. -/
def runEvents : List Event → State → Result
  | [], s => .next s
  | e :: es, s =>
    match exec e.instr s with
    | .next t => runEvents es t
    | .fault f => .fault f
    | .refused r => .refused r

/-- `n` micro-operations of the flash engine (30 R98 `FSTEP n`). -/
abbrev flashSteps (n : Nat) (s : State) : Result := runEvents (List.replicate n .flashStep) s

/-- The event is a reset: RESET or POWER_FAIL (70 R270, R272). -/
abbrev EventResets (e : Event) : Prop := (∃ c, e = .reset c) ∨ ∃ d, e = .powerFail d

/-- The instruction is a reset. -/
abbrev InstrResets (i : Instr) : Prop := (∃ c, i = .reset c) ∨ ∃ d, i = .powerFail d

/-- A frame from `source` is in the buffer of an admitted configuration: what a reply needs (42 R140). -/
abbrev Served (s : State) (source : Byte) : Prop := s.cfg.Admitted ∧ s.buf.find? 0 = some source

/-- POLL's frame check finds the complete frame `frame` in the buffer: its length byte is at index 3 and `length + 1`
bytes have arrived (10 R28, 41 R130). -/
abbrev FrameArrived (s : State) (frame : Bytes) : Prop :=
  PollEnabled s ∧ s.txPhase = .idle ∧ s.rxActive = true ∧ BufHolds s 0 frame ∧
    frame.length = (frame.getD 3 0).toNat + 1 ∧ frame.length ≤ s.rxCursor ∧ 7 ≤ frame.length

/-- The image at `base` is invalid: the CRC of all but its last two bytes differs from its last word (40 R114). -/
abbrev ImageBad (s : State) (base : Nat) : Prop :=
  s.cfg.crc (flashBytes s base (s.cfg.imageLen - 2)) ≠ flashWord s (base + (s.cfg.imageLen - 2))

/-- The copy in progress goes from the image at `src` to the image at `dst` (44 R208). -/
abbrev Copying (s : State) (src dst : Nat) : Prop :=
  (s.feState = .reflashing ∧ src = s.cfg.originBase ∧ dst = s.cfg.destBase) ∨
  (s.feState = .selfHeal ∧ src = s.cfg.destBase ∧ dst = s.cfg.originBase)

/-- The bytes already on the bus and those still in the UART, in the order they leave (42 R151, R157). -/
def lineBytes (s : State) : Bytes := s.wireOut ++ s.uartFifo

end Sys2Proof.Machine
end

