-- ==== Sys2Proof/Laws/State.lean ====
section
/-! SUPPORT. One lemma per field per named update of the state, so that no proof unfolds a record update. -/

namespace Sys2Proof.Machine

@[simp] theorem emit_cfg (r : Record) (s : State) : (emit r s).cfg = s.cfg := rfl
@[simp] theorem emit_buf (r : Record) (s : State) : (emit r s).buf = s.buf := rfl
@[simp] theorem emit_rxActive (r : Record) (s : State) : (emit r s).rxActive = s.rxActive := rfl
@[simp] theorem emit_rxCursor (r : Record) (s : State) : (emit r s).rxCursor = s.rxCursor := rfl
@[simp] theorem emit_rxIe (r : Record) (s : State) : (emit r s).rxIe = s.rxIe := rfl
@[simp] theorem emit_gapTimer (r : Record) (s : State) : (emit r s).gapTimer = s.gapTimer := rfl
@[simp] theorem emit_txPhase (r : Record) (s : State) : (emit r s).txPhase = s.txPhase := rfl
@[simp] theorem emit_txIndex (r : Record) (s : State) : (emit r s).txIndex = s.txIndex := rfl
@[simp] theorem emit_txSize (r : Record) (s : State) : (emit r s).txSize = s.txSize := rfl
@[simp] theorem emit_txIe (r : Record) (s : State) : (emit r s).txIe = s.txIe := rfl
@[simp] theorem emit_guardTimer (r : Record) (s : State) : (emit r s).guardTimer = s.guardTimer := rfl
@[simp] theorem emit_uartFifo (r : Record) (s : State) : (emit r s).uartFifo = s.uartFifo := rfl
@[simp] theorem emit_feState (r : Record) (s : State) : (emit r s).feState = s.feState := rfl
@[simp] theorem emit_feOp (r : Record) (s : State) : (emit r s).feOp = s.feOp := rfl
@[simp] theorem emit_feSeg (r : Record) (s : State) : (emit r s).feSeg = s.feSeg := rfl
@[simp] theorem emit_feOff (r : Record) (s : State) : (emit r s).feOff = s.feOff := rfl
@[simp] theorem emit_bwAddr (r : Record) (s : State) : (emit r s).bwAddr = s.bwAddr := rfl
@[simp] theorem emit_bwLen (r : Record) (s : State) : (emit r s).bwLen = s.bwLen := rfl
@[simp] theorem emit_badCrcCount (r : Record) (s : State) : (emit r s).badCrcCount = s.badCrcCount := rfl
@[simp] theorem emit_flashErr (r : Record) (s : State) : (emit r s).flashErr = s.flashErr := rfl
@[simp] theorem emit_booted (r : Record) (s : State) : (emit r s).booted = s.booted := rfl
@[simp] theorem emit_flash (r : Record) (s : State) : (emit r s).flash = s.flash := rfl
@[simp] theorem emit_wireOut (r : Record) (s : State) : (emit r s).wireOut = s.wireOut := rfl
@[simp] theorem emit_hostLog (r : Record) (s : State) : (emit r s).hostLog = s.hostLog ++ [r] := rfl
@[simp] theorem emit_pollResult (r : Record) (s : State) : (emit r s).pollResult = s.pollResult := rfl
@[simp] theorem emit_script (r : Record) (s : State) : (emit r s).script = s.script := rfl
@[simp] theorem emit_snapQueue (r : Record) (s : State) : (emit r s).snapQueue = s.snapQueue := rfl
@[simp] theorem emit_draws (r : Record) (s : State) : (emit r s).draws = s.draws := rfl

@[simp] theorem resetElements_cfg (s : State) : (resetElements s).cfg = s.cfg := rfl
@[simp] theorem resetElements_buf (s : State) : (resetElements s).buf = [] := rfl
@[simp] theorem resetElements_rxActive (s : State) : (resetElements s).rxActive = false := rfl
@[simp] theorem resetElements_rxCursor (s : State) : (resetElements s).rxCursor = 0 := rfl
@[simp] theorem resetElements_rxIe (s : State) : (resetElements s).rxIe = false := rfl
@[simp] theorem resetElements_gapTimer (s : State) : (resetElements s).gapTimer = 0 := rfl
@[simp] theorem resetElements_txPhase (s : State) : (resetElements s).txPhase = .idle := rfl
@[simp] theorem resetElements_txIndex (s : State) : (resetElements s).txIndex = 0 := rfl
@[simp] theorem resetElements_txSize (s : State) : (resetElements s).txSize = 0 := rfl
@[simp] theorem resetElements_txIe (s : State) : (resetElements s).txIe = false := rfl
@[simp] theorem resetElements_guardTimer (s : State) : (resetElements s).guardTimer = 0 := rfl
@[simp] theorem resetElements_uartFifo (s : State) : (resetElements s).uartFifo = [] := rfl
@[simp] theorem resetElements_feState (s : State) : (resetElements s).feState = .startupCheck := rfl
@[simp] theorem resetElements_feOp (s : State) : (resetElements s).feOp = .erase := rfl
@[simp] theorem resetElements_feSeg (s : State) : (resetElements s).feSeg = 0 := rfl
@[simp] theorem resetElements_feOff (s : State) : (resetElements s).feOff = 0 := rfl
@[simp] theorem resetElements_bwAddr (s : State) : (resetElements s).bwAddr = 0 := rfl
@[simp] theorem resetElements_bwLen (s : State) : (resetElements s).bwLen = 0 := rfl
@[simp] theorem resetElements_badCrcCount (s : State) : (resetElements s).badCrcCount = 0 := rfl
@[simp] theorem resetElements_flashErr (s : State) : (resetElements s).flashErr = false := rfl
@[simp] theorem resetElements_booted (s : State) : (resetElements s).booted = false := rfl
@[simp] theorem resetElements_flash (s : State) : (resetElements s).flash = s.flash := rfl
@[simp] theorem resetElements_wireOut (s : State) : (resetElements s).wireOut = s.wireOut := rfl
@[simp] theorem resetElements_hostLog (s : State) : (resetElements s).hostLog = s.hostLog := rfl
@[simp] theorem resetElements_pollResult (s : State) : (resetElements s).pollResult = s.pollResult := rfl
@[simp] theorem resetElements_script (s : State) : (resetElements s).script = s.script := rfl
@[simp] theorem resetElements_snapQueue (s : State) : (resetElements s).snapQueue = s.snapQueue := rfl
@[simp] theorem resetElements_draws (s : State) : (resetElements s).draws = s.draws := rfl

@[simp] theorem boot_cfg (s : State) : (boot s).cfg = s.cfg := rfl
@[simp] theorem boot_buf (s : State) : (boot s).buf = s.buf := rfl
@[simp] theorem boot_rxActive (s : State) : (boot s).rxActive = s.rxActive := rfl
@[simp] theorem boot_rxCursor (s : State) : (boot s).rxCursor = s.rxCursor := rfl
@[simp] theorem boot_rxIe (s : State) : (boot s).rxIe = true := rfl
@[simp] theorem boot_gapTimer (s : State) : (boot s).gapTimer = s.gapTimer := rfl
@[simp] theorem boot_txPhase (s : State) : (boot s).txPhase = s.txPhase := rfl
@[simp] theorem boot_txIndex (s : State) : (boot s).txIndex = s.txIndex := rfl
@[simp] theorem boot_txSize (s : State) : (boot s).txSize = s.txSize := rfl
@[simp] theorem boot_txIe (s : State) : (boot s).txIe = s.txIe := rfl
@[simp] theorem boot_guardTimer (s : State) : (boot s).guardTimer = s.guardTimer := rfl
@[simp] theorem boot_uartFifo (s : State) : (boot s).uartFifo = s.uartFifo := rfl
@[simp] theorem boot_feState (s : State) : (boot s).feState = .idle := rfl
@[simp] theorem boot_feOp (s : State) : (boot s).feOp = s.feOp := rfl
@[simp] theorem boot_feSeg (s : State) : (boot s).feSeg = s.feSeg := rfl
@[simp] theorem boot_feOff (s : State) : (boot s).feOff = s.feOff := rfl
@[simp] theorem boot_bwAddr (s : State) : (boot s).bwAddr = s.bwAddr := rfl
@[simp] theorem boot_bwLen (s : State) : (boot s).bwLen = s.bwLen := rfl
@[simp] theorem boot_badCrcCount (s : State) : (boot s).badCrcCount = s.badCrcCount := rfl
@[simp] theorem boot_flashErr (s : State) : (boot s).flashErr = s.flashErr := rfl
@[simp] theorem boot_booted (s : State) : (boot s).booted = true := rfl
@[simp] theorem boot_flash (s : State) : (boot s).flash = s.flash := rfl
@[simp] theorem boot_wireOut (s : State) : (boot s).wireOut = s.wireOut := rfl
@[simp] theorem boot_hostLog (s : State) : (boot s).hostLog = s.hostLog ++ [.booted s.flashErr] := rfl
@[simp] theorem boot_pollResult (s : State) : (boot s).pollResult = s.pollResult := rfl
@[simp] theorem boot_script (s : State) : (boot s).script = s.script := rfl
@[simp] theorem boot_snapQueue (s : State) : (boot s).snapQueue = s.snapQueue := rfl
@[simp] theorem boot_draws (s : State) : (boot s).draws = s.draws := rfl

@[simp] theorem enterCopy_cfg (f : FeState) (s : State) : (enterCopy f s).cfg = s.cfg := rfl
@[simp] theorem enterCopy_buf (f : FeState) (s : State) : (enterCopy f s).buf = s.buf := rfl
@[simp] theorem enterCopy_rxActive (f : FeState) (s : State) : (enterCopy f s).rxActive = s.rxActive := rfl
@[simp] theorem enterCopy_rxCursor (f : FeState) (s : State) : (enterCopy f s).rxCursor = s.rxCursor := rfl
@[simp] theorem enterCopy_rxIe (f : FeState) (s : State) : (enterCopy f s).rxIe = s.rxIe := rfl
@[simp] theorem enterCopy_gapTimer (f : FeState) (s : State) : (enterCopy f s).gapTimer = s.gapTimer := rfl
@[simp] theorem enterCopy_txPhase (f : FeState) (s : State) : (enterCopy f s).txPhase = s.txPhase := rfl
@[simp] theorem enterCopy_txIndex (f : FeState) (s : State) : (enterCopy f s).txIndex = s.txIndex := rfl
@[simp] theorem enterCopy_txSize (f : FeState) (s : State) : (enterCopy f s).txSize = s.txSize := rfl
@[simp] theorem enterCopy_txIe (f : FeState) (s : State) : (enterCopy f s).txIe = s.txIe := rfl
@[simp] theorem enterCopy_guardTimer (f : FeState) (s : State) : (enterCopy f s).guardTimer = s.guardTimer := rfl
@[simp] theorem enterCopy_uartFifo (f : FeState) (s : State) : (enterCopy f s).uartFifo = s.uartFifo := rfl
@[simp] theorem enterCopy_feState (f : FeState) (s : State) : (enterCopy f s).feState = f := rfl
@[simp] theorem enterCopy_feOp (f : FeState) (s : State) : (enterCopy f s).feOp = .erase := rfl
@[simp] theorem enterCopy_feSeg (f : FeState) (s : State) : (enterCopy f s).feSeg = 0 := rfl
@[simp] theorem enterCopy_feOff (f : FeState) (s : State) : (enterCopy f s).feOff = 0 := rfl
@[simp] theorem enterCopy_bwAddr (f : FeState) (s : State) : (enterCopy f s).bwAddr = s.bwAddr := rfl
@[simp] theorem enterCopy_bwLen (f : FeState) (s : State) : (enterCopy f s).bwLen = s.bwLen := rfl
@[simp] theorem enterCopy_badCrcCount (f : FeState) (s : State) : (enterCopy f s).badCrcCount = s.badCrcCount := rfl
@[simp] theorem enterCopy_flashErr (f : FeState) (s : State) : (enterCopy f s).flashErr = s.flashErr := rfl
@[simp] theorem enterCopy_booted (f : FeState) (s : State) : (enterCopy f s).booted = s.booted := rfl
@[simp] theorem enterCopy_flash (f : FeState) (s : State) : (enterCopy f s).flash = s.flash := rfl
@[simp] theorem enterCopy_wireOut (f : FeState) (s : State) : (enterCopy f s).wireOut = s.wireOut := rfl
@[simp] theorem enterCopy_hostLog (f : FeState) (s : State) : (enterCopy f s).hostLog = s.hostLog := rfl
@[simp] theorem enterCopy_pollResult (f : FeState) (s : State) : (enterCopy f s).pollResult = s.pollResult := rfl
@[simp] theorem enterCopy_script (f : FeState) (s : State) : (enterCopy f s).script = s.script := rfl
@[simp] theorem enterCopy_snapQueue (f : FeState) (s : State) : (enterCopy f s).snapQueue = s.snapQueue := rfl
@[simp] theorem enterCopy_draws (f : FeState) (s : State) : (enterCopy f s).draws = s.draws := rfl

@[simp] theorem startBlockWrite_cfg (a : Word16) (n : Byte) (s : State) : (startBlockWrite a n s).cfg = s.cfg := rfl
@[simp] theorem startBlockWrite_buf (a : Word16) (n : Byte) (s : State) : (startBlockWrite a n s).buf = s.buf := rfl
@[simp] theorem startBlockWrite_rxActive (a : Word16) (n : Byte) (s : State) : (startBlockWrite a n s).rxActive = s.rxActive := rfl
@[simp] theorem startBlockWrite_rxCursor (a : Word16) (n : Byte) (s : State) : (startBlockWrite a n s).rxCursor = s.rxCursor := rfl
@[simp] theorem startBlockWrite_rxIe (a : Word16) (n : Byte) (s : State) : (startBlockWrite a n s).rxIe = s.rxIe := rfl
@[simp] theorem startBlockWrite_gapTimer (a : Word16) (n : Byte) (s : State) : (startBlockWrite a n s).gapTimer = s.gapTimer := rfl
@[simp] theorem startBlockWrite_txPhase (a : Word16) (n : Byte) (s : State) : (startBlockWrite a n s).txPhase = s.txPhase := rfl
@[simp] theorem startBlockWrite_txIndex (a : Word16) (n : Byte) (s : State) : (startBlockWrite a n s).txIndex = s.txIndex := rfl
@[simp] theorem startBlockWrite_txSize (a : Word16) (n : Byte) (s : State) : (startBlockWrite a n s).txSize = s.txSize := rfl
@[simp] theorem startBlockWrite_txIe (a : Word16) (n : Byte) (s : State) : (startBlockWrite a n s).txIe = s.txIe := rfl
@[simp] theorem startBlockWrite_guardTimer (a : Word16) (n : Byte) (s : State) : (startBlockWrite a n s).guardTimer = s.guardTimer := rfl
@[simp] theorem startBlockWrite_uartFifo (a : Word16) (n : Byte) (s : State) : (startBlockWrite a n s).uartFifo = s.uartFifo := rfl
@[simp] theorem startBlockWrite_feState (a : Word16) (n : Byte) (s : State) : (startBlockWrite a n s).feState = .blockWrite := rfl
@[simp] theorem startBlockWrite_feOp (a : Word16) (n : Byte) (s : State) : (startBlockWrite a n s).feOp = if a.toNat % s.cfg.segSize = 0 then .erase else if 0 < n.toNat then .write else .verify := rfl
@[simp] theorem startBlockWrite_feSeg (a : Word16) (n : Byte) (s : State) : (startBlockWrite a n s).feSeg = s.feSeg := rfl
@[simp] theorem startBlockWrite_feOff (a : Word16) (n : Byte) (s : State) : (startBlockWrite a n s).feOff = 0 := rfl
@[simp] theorem startBlockWrite_bwAddr (a : Word16) (n : Byte) (s : State) : (startBlockWrite a n s).bwAddr = a := rfl
@[simp] theorem startBlockWrite_bwLen (a : Word16) (n : Byte) (s : State) : (startBlockWrite a n s).bwLen = n := rfl
@[simp] theorem startBlockWrite_badCrcCount (a : Word16) (n : Byte) (s : State) : (startBlockWrite a n s).badCrcCount = s.badCrcCount := rfl
@[simp] theorem startBlockWrite_flashErr (a : Word16) (n : Byte) (s : State) : (startBlockWrite a n s).flashErr = s.flashErr := rfl
@[simp] theorem startBlockWrite_booted (a : Word16) (n : Byte) (s : State) : (startBlockWrite a n s).booted = s.booted := rfl
@[simp] theorem startBlockWrite_flash (a : Word16) (n : Byte) (s : State) : (startBlockWrite a n s).flash = s.flash := rfl
@[simp] theorem startBlockWrite_wireOut (a : Word16) (n : Byte) (s : State) : (startBlockWrite a n s).wireOut = s.wireOut := rfl
@[simp] theorem startBlockWrite_hostLog (a : Word16) (n : Byte) (s : State) : (startBlockWrite a n s).hostLog = s.hostLog := rfl
@[simp] theorem startBlockWrite_pollResult (a : Word16) (n : Byte) (s : State) : (startBlockWrite a n s).pollResult = s.pollResult := rfl
@[simp] theorem startBlockWrite_script (a : Word16) (n : Byte) (s : State) : (startBlockWrite a n s).script = s.script := rfl
@[simp] theorem startBlockWrite_snapQueue (a : Word16) (n : Byte) (s : State) : (startBlockWrite a n s).snapQueue = s.snapQueue := rfl
@[simp] theorem startBlockWrite_draws (a : Word16) (n : Byte) (s : State) : (startBlockWrite a n s).draws = s.draws := rfl

@[simp] theorem resumeReceiving_cfg (s : State) : (resumeReceiving s).cfg = s.cfg := rfl
@[simp] theorem resumeReceiving_buf (s : State) : (resumeReceiving s).buf = s.buf := rfl
@[simp] theorem resumeReceiving_rxActive (s : State) : (resumeReceiving s).rxActive = false := rfl
@[simp] theorem resumeReceiving_rxCursor (s : State) : (resumeReceiving s).rxCursor = 0 := rfl
@[simp] theorem resumeReceiving_rxIe (s : State) : (resumeReceiving s).rxIe = true := rfl
@[simp] theorem resumeReceiving_gapTimer (s : State) : (resumeReceiving s).gapTimer = 0 := rfl
@[simp] theorem resumeReceiving_txPhase (s : State) : (resumeReceiving s).txPhase = .idle := rfl
@[simp] theorem resumeReceiving_txIndex (s : State) : (resumeReceiving s).txIndex = 0 := rfl
@[simp] theorem resumeReceiving_txSize (s : State) : (resumeReceiving s).txSize = 0 := rfl
@[simp] theorem resumeReceiving_txIe (s : State) : (resumeReceiving s).txIe = false := rfl
@[simp] theorem resumeReceiving_guardTimer (s : State) : (resumeReceiving s).guardTimer = s.guardTimer := rfl
@[simp] theorem resumeReceiving_uartFifo (s : State) : (resumeReceiving s).uartFifo = s.uartFifo := rfl
@[simp] theorem resumeReceiving_feState (s : State) : (resumeReceiving s).feState = s.feState := rfl
@[simp] theorem resumeReceiving_feOp (s : State) : (resumeReceiving s).feOp = s.feOp := rfl
@[simp] theorem resumeReceiving_feSeg (s : State) : (resumeReceiving s).feSeg = s.feSeg := rfl
@[simp] theorem resumeReceiving_feOff (s : State) : (resumeReceiving s).feOff = s.feOff := rfl
@[simp] theorem resumeReceiving_bwAddr (s : State) : (resumeReceiving s).bwAddr = s.bwAddr := rfl
@[simp] theorem resumeReceiving_bwLen (s : State) : (resumeReceiving s).bwLen = s.bwLen := rfl
@[simp] theorem resumeReceiving_badCrcCount (s : State) : (resumeReceiving s).badCrcCount = s.badCrcCount := rfl
@[simp] theorem resumeReceiving_flashErr (s : State) : (resumeReceiving s).flashErr = s.flashErr := rfl
@[simp] theorem resumeReceiving_booted (s : State) : (resumeReceiving s).booted = s.booted := rfl
@[simp] theorem resumeReceiving_flash (s : State) : (resumeReceiving s).flash = s.flash := rfl
@[simp] theorem resumeReceiving_wireOut (s : State) : (resumeReceiving s).wireOut = s.wireOut := rfl
@[simp] theorem resumeReceiving_hostLog (s : State) : (resumeReceiving s).hostLog = s.hostLog := rfl
@[simp] theorem resumeReceiving_pollResult (s : State) : (resumeReceiving s).pollResult = s.pollResult := rfl
@[simp] theorem resumeReceiving_script (s : State) : (resumeReceiving s).script = s.script := rfl
@[simp] theorem resumeReceiving_snapQueue (s : State) : (resumeReceiving s).snapQueue = s.snapQueue := rfl
@[simp] theorem resumeReceiving_draws (s : State) : (resumeReceiving s).draws = s.draws := rfl

@[simp] theorem dropFrame_cfg (r : Record) (s : State) : (dropFrame r s).cfg = s.cfg := rfl
@[simp] theorem dropFrame_buf (r : Record) (s : State) : (dropFrame r s).buf = s.buf := rfl
@[simp] theorem dropFrame_rxActive (r : Record) (s : State) : (dropFrame r s).rxActive = false := rfl
@[simp] theorem dropFrame_rxCursor (r : Record) (s : State) : (dropFrame r s).rxCursor = 0 := rfl
@[simp] theorem dropFrame_rxIe (r : Record) (s : State) : (dropFrame r s).rxIe = s.rxIe := rfl
@[simp] theorem dropFrame_gapTimer (r : Record) (s : State) : (dropFrame r s).gapTimer = s.gapTimer := rfl
@[simp] theorem dropFrame_txPhase (r : Record) (s : State) : (dropFrame r s).txPhase = s.txPhase := rfl
@[simp] theorem dropFrame_txIndex (r : Record) (s : State) : (dropFrame r s).txIndex = s.txIndex := rfl
@[simp] theorem dropFrame_txSize (r : Record) (s : State) : (dropFrame r s).txSize = s.txSize := rfl
@[simp] theorem dropFrame_txIe (r : Record) (s : State) : (dropFrame r s).txIe = s.txIe := rfl
@[simp] theorem dropFrame_guardTimer (r : Record) (s : State) : (dropFrame r s).guardTimer = s.guardTimer := rfl
@[simp] theorem dropFrame_uartFifo (r : Record) (s : State) : (dropFrame r s).uartFifo = s.uartFifo := rfl
@[simp] theorem dropFrame_feState (r : Record) (s : State) : (dropFrame r s).feState = s.feState := rfl
@[simp] theorem dropFrame_feOp (r : Record) (s : State) : (dropFrame r s).feOp = s.feOp := rfl
@[simp] theorem dropFrame_feSeg (r : Record) (s : State) : (dropFrame r s).feSeg = s.feSeg := rfl
@[simp] theorem dropFrame_feOff (r : Record) (s : State) : (dropFrame r s).feOff = s.feOff := rfl
@[simp] theorem dropFrame_bwAddr (r : Record) (s : State) : (dropFrame r s).bwAddr = s.bwAddr := rfl
@[simp] theorem dropFrame_bwLen (r : Record) (s : State) : (dropFrame r s).bwLen = s.bwLen := rfl
@[simp] theorem dropFrame_badCrcCount (r : Record) (s : State) : (dropFrame r s).badCrcCount = s.badCrcCount := rfl
@[simp] theorem dropFrame_flashErr (r : Record) (s : State) : (dropFrame r s).flashErr = s.flashErr := rfl
@[simp] theorem dropFrame_booted (r : Record) (s : State) : (dropFrame r s).booted = s.booted := rfl
@[simp] theorem dropFrame_flash (r : Record) (s : State) : (dropFrame r s).flash = s.flash := rfl
@[simp] theorem dropFrame_wireOut (r : Record) (s : State) : (dropFrame r s).wireOut = s.wireOut := rfl
@[simp] theorem dropFrame_hostLog (r : Record) (s : State) : (dropFrame r s).hostLog = s.hostLog ++ [r] := rfl
@[simp] theorem dropFrame_pollResult (r : Record) (s : State) : (dropFrame r s).pollResult = s.pollResult := rfl
@[simp] theorem dropFrame_script (r : Record) (s : State) : (dropFrame r s).script = s.script := rfl
@[simp] theorem dropFrame_snapQueue (r : Record) (s : State) : (dropFrame r s).snapQueue = s.snapQueue := rfl
@[simp] theorem dropFrame_draws (r : Record) (s : State) : (dropFrame r s).draws = s.draws := rfl

@[simp] theorem reflashFinish_cfg (s : State) : (reflashFinish s).cfg = s.cfg := rfl
@[simp] theorem reflashFinish_buf (s : State) : (reflashFinish s).buf = s.buf := rfl
@[simp] theorem reflashFinish_rxActive (s : State) : (reflashFinish s).rxActive = s.rxActive := rfl
@[simp] theorem reflashFinish_rxCursor (s : State) : (reflashFinish s).rxCursor = s.rxCursor := rfl
@[simp] theorem reflashFinish_rxIe (s : State) : (reflashFinish s).rxIe = s.rxIe := rfl
@[simp] theorem reflashFinish_gapTimer (s : State) : (reflashFinish s).gapTimer = s.gapTimer := rfl
@[simp] theorem reflashFinish_txPhase (s : State) : (reflashFinish s).txPhase = s.txPhase := rfl
@[simp] theorem reflashFinish_txIndex (s : State) : (reflashFinish s).txIndex = s.txIndex := rfl
@[simp] theorem reflashFinish_txSize (s : State) : (reflashFinish s).txSize = s.txSize := rfl
@[simp] theorem reflashFinish_txIe (s : State) : (reflashFinish s).txIe = s.txIe := rfl
@[simp] theorem reflashFinish_guardTimer (s : State) : (reflashFinish s).guardTimer = s.guardTimer := rfl
@[simp] theorem reflashFinish_uartFifo (s : State) : (reflashFinish s).uartFifo = s.uartFifo := rfl
@[simp] theorem reflashFinish_feState (s : State) : (reflashFinish s).feState = .rebooted := rfl
@[simp] theorem reflashFinish_feOp (s : State) : (reflashFinish s).feOp = s.feOp := rfl
@[simp] theorem reflashFinish_feSeg (s : State) : (reflashFinish s).feSeg = s.feSeg := rfl
@[simp] theorem reflashFinish_feOff (s : State) : (reflashFinish s).feOff = s.feOff := rfl
@[simp] theorem reflashFinish_bwAddr (s : State) : (reflashFinish s).bwAddr = s.bwAddr := rfl
@[simp] theorem reflashFinish_bwLen (s : State) : (reflashFinish s).bwLen = s.bwLen := rfl
@[simp] theorem reflashFinish_badCrcCount (s : State) : (reflashFinish s).badCrcCount = s.badCrcCount := rfl
@[simp] theorem reflashFinish_flashErr (s : State) : (reflashFinish s).flashErr = s.flashErr := rfl
@[simp] theorem reflashFinish_booted (s : State) : (reflashFinish s).booted = s.booted := rfl
@[simp] theorem reflashFinish_flash (s : State) : (reflashFinish s).flash = s.flash := rfl
@[simp] theorem reflashFinish_wireOut (s : State) : (reflashFinish s).wireOut = s.wireOut := rfl
@[simp] theorem reflashFinish_hostLog (s : State) : (reflashFinish s).hostLog = s.hostLog := rfl
@[simp] theorem reflashFinish_pollResult (s : State) : (reflashFinish s).pollResult = s.pollResult := rfl
@[simp] theorem reflashFinish_script (s : State) : (reflashFinish s).script = s.script := rfl
@[simp] theorem reflashFinish_snapQueue (s : State) : (reflashFinish s).snapQueue = s.snapQueue := rfl
@[simp] theorem reflashFinish_draws (s : State) : (reflashFinish s).draws = s.draws := rfl

@[simp] theorem replied_cfg (c src : Byte) (p : Bytes) (s : State) : (replied c src p s).cfg = s.cfg := rfl
@[simp] theorem replied_buf (c src : Byte) (p : Bytes) (s : State) : (replied c src p s).buf = s.buf.storeAll none 0 (frameImage s.cfg s.cfg.devAddr src c p) := rfl
@[simp] theorem replied_rxActive (c src : Byte) (p : Bytes) (s : State) : (replied c src p s).rxActive = s.rxActive := rfl
@[simp] theorem replied_rxCursor (c src : Byte) (p : Bytes) (s : State) : (replied c src p s).rxCursor = s.rxCursor := rfl
@[simp] theorem replied_rxIe (c src : Byte) (p : Bytes) (s : State) : (replied c src p s).rxIe = s.rxIe := rfl
@[simp] theorem replied_gapTimer (c src : Byte) (p : Bytes) (s : State) : (replied c src p s).gapTimer = s.gapTimer := rfl
@[simp] theorem replied_txPhase (c src : Byte) (p : Bytes) (s : State) : (replied c src p s).txPhase = .pre := rfl
@[simp] theorem replied_txIndex (c src : Byte) (p : Bytes) (s : State) : (replied c src p s).txIndex = 0 := rfl
@[simp] theorem replied_txSize (c src : Byte) (p : Bytes) (s : State) : (replied c src p s).txSize = p.length + 8 := rfl
@[simp] theorem replied_txIe (c src : Byte) (p : Bytes) (s : State) : (replied c src p s).txIe = s.txIe := rfl
@[simp] theorem replied_guardTimer (c src : Byte) (p : Bytes) (s : State) : (replied c src p s).guardTimer = s.cfg.guardPreTicks := rfl
@[simp] theorem replied_uartFifo (c src : Byte) (p : Bytes) (s : State) : (replied c src p s).uartFifo = s.uartFifo := rfl
@[simp] theorem replied_feState (c src : Byte) (p : Bytes) (s : State) : (replied c src p s).feState = s.feState := rfl
@[simp] theorem replied_feOp (c src : Byte) (p : Bytes) (s : State) : (replied c src p s).feOp = s.feOp := rfl
@[simp] theorem replied_feSeg (c src : Byte) (p : Bytes) (s : State) : (replied c src p s).feSeg = s.feSeg := rfl
@[simp] theorem replied_feOff (c src : Byte) (p : Bytes) (s : State) : (replied c src p s).feOff = s.feOff := rfl
@[simp] theorem replied_bwAddr (c src : Byte) (p : Bytes) (s : State) : (replied c src p s).bwAddr = s.bwAddr := rfl
@[simp] theorem replied_bwLen (c src : Byte) (p : Bytes) (s : State) : (replied c src p s).bwLen = s.bwLen := rfl
@[simp] theorem replied_badCrcCount (c src : Byte) (p : Bytes) (s : State) : (replied c src p s).badCrcCount = s.badCrcCount := rfl
@[simp] theorem replied_flashErr (c src : Byte) (p : Bytes) (s : State) : (replied c src p s).flashErr = s.flashErr := rfl
@[simp] theorem replied_booted (c src : Byte) (p : Bytes) (s : State) : (replied c src p s).booted = s.booted := rfl
@[simp] theorem replied_flash (c src : Byte) (p : Bytes) (s : State) : (replied c src p s).flash = s.flash := rfl
@[simp] theorem replied_wireOut (c src : Byte) (p : Bytes) (s : State) : (replied c src p s).wireOut = s.wireOut := rfl
@[simp] theorem replied_hostLog (c src : Byte) (p : Bytes) (s : State) : (replied c src p s).hostLog = s.hostLog := rfl
@[simp] theorem replied_pollResult (c src : Byte) (p : Bytes) (s : State) : (replied c src p s).pollResult = s.pollResult := rfl
@[simp] theorem replied_script (c src : Byte) (p : Bytes) (s : State) : (replied c src p s).script = s.script := rfl
@[simp] theorem replied_snapQueue (c src : Byte) (p : Bytes) (s : State) : (replied c src p s).snapQueue = s.snapQueue := rfl
@[simp] theorem replied_draws (c src : Byte) (p : Bytes) (s : State) : (replied c src p s).draws = s.draws := rfl

end Sys2Proof.Machine
end

