-- ==== Sys2Proof/Laws/Ops.lean ====
section
/-! SUPPORT. One spec lemma per shared operation: when it succeeds and with which state. -/

namespace Sys2Proof.Machine

/-! ### Sequencing -/

@[simp] theorem ok_bind {ε α β : Type} (a : α) (f : α → Except ε β) : (Except.ok a >>= f) = f a := rfl

@[simp] theorem error_bind {ε α β : Type} (e : ε) (f : α → Except ε β) : ((Except.error e : Except ε α) >>= f) = .error e := rfl

@[simp] theorem pure_eq_ok {ε α : Type} (a : α) : (pure a : Except ε α) = .ok a := rfl

theorem bind_ok {ε α β : Type} {x : Except ε α} {f : α → Except ε β} {b : β} (h : (x >>= f) = .ok b) :
    ∃ a, x = .ok a ∧ f a = .ok b := by
  cases x with
  | ok a => exact ⟨a, rfl, h⟩
  | error e => cases h

@[simp] theorem finish_ok (s : State) : finish (.ok s) = .next s := rfl

@[simp] theorem finish_error (f : Fault) : finish (.error f) = .fault f := rfl

theorem finish_next {x : Except Fault State} {t : State} (h : finish x = .next t) : x = .ok t := by
  cases x with
  | ok s => cases h; rfl
  | error f => cases h

/-! ### The frame buffer -/

theorem bufByte_ok {s : State} {i : Nat} {b : Byte} (h : s.buf.find? i = some b) : bufByte s i = .ok b := by
  simp [bufByte, h]

theorem bufByte_inv {s : State} {i : Nat} {b : Byte} (h : bufByte s i = .ok b) : s.buf.find? i = some b := by
  unfold bufByte at h
  split at h
  · cases h; assumption
  · cases h

/-- A read of written bytes gives them. -/
theorem bufBytes_holds {s : State} {i : Nat} {bs : Bytes} (h : BufHolds s i bs) : bufBytes s i bs.length = .ok bs := by
  induction bs generalizing i with
  | nil => rfl
  | cons b bs ih =>
    have h0 : s.buf.find? i = some b := h 0 (Nat.succ_pos _)
    have hr : BufHolds s (i + 1) bs := fun k hk => by
      have := h (k + 1) (by simpa using hk)
      rw [show i + 1 + k = i + (k + 1) by omega, this]
      simp
    simp [bufBytes, bufByte_ok h0, ih hr]

theorem bufBytes_inv {s : State} {i n : Nat} {bs : Bytes} (h : bufBytes s i n = .ok bs) :
    bs.length = n ∧ BufHolds s i bs := by
  induction n generalizing i bs with
  | zero =>
    cases h
    exact ⟨rfl, fun k hk => absurd hk (by simp)⟩
  | succ n ih =>
    obtain ⟨b, hb, h⟩ := bind_ok h
    obtain ⟨rest, hr, h⟩ := bind_ok h
    cases h
    obtain ⟨hl, hh⟩ := ih hr
    refine ⟨by simp [hl], fun k hk => ?_⟩
    cases k with
    | zero => simpa using bufByte_inv hb
    | succ k =>
      have := hh k (by simpa using hk)
      rw [show i + (k + 1) = i + 1 + k by omega, this]
      simp

theorem bufBytes_written {s : State} {i n : Nat} (h : Written s i n) : ∃ bs, bufBytes s i n = .ok bs := by
  induction n generalizing i with
  | zero => exact ⟨[], rfl⟩
  | succ n ih =>
    obtain ⟨b, hb⟩ := Option.isSome_iff_exists.1 (by simpa using h 0 (by omega))
    obtain ⟨bs, hbs⟩ := ih (i := i + 1) fun k hk => by
      rw [show i + 1 + k = i + (k + 1) by omega]
      exact h (k + 1) (by omega)
    exact ⟨b :: bs, by simp [bufBytes, bufByte_ok hb, hbs]⟩

theorem bufStores_eq (i : Nat) (bs : Bytes) (s : State) :
    bufStores i bs s =
      if i + bs.length ≤ s.cfg.bufSize ∨ bs = [] then .ok { s with buf := s.buf.storeAll none i bs }
      else .error .stateOverflow := by
  induction bs generalizing i s with
  | nil => simp [bufStores, Memory.storeAll]
  | cons b bs ih =>
    simp only [bufStores, bufStore]
    by_cases hi : i < s.cfg.bufSize
    · rw [if_pos hi, ok_bind, ih]
      simp only [Memory.storeAll, List.length_cons, reduceCtorEq, or_false]
      cases bs with
      | nil => simp [Memory.storeAll]; omega
      | cons c cs =>
        simp only [reduceCtorEq, or_false]
        congr 1
        simp; omega
    · rw [if_neg hi, error_bind, if_neg]
      simp
      omega

theorem bufStores_ok {i : Nat} {bs : Bytes} {s : State} (h : i + bs.length ≤ s.cfg.bufSize) :
    bufStores i bs s = .ok { s with buf := s.buf.storeAll none i bs } := by
  rw [bufStores_eq, if_pos (.inl h)]

theorem bufStores_inv {i : Nat} {bs : Bytes} {s t : State} (h : bufStores i bs s = .ok t) :
    t = { s with buf := s.buf.storeAll none i bs } := by
  rw [bufStores_eq] at h
  split at h <;> cases h
  rfl

/-! ### The flash -/

/-- What a flash byte reads as depends on the flash and the erased value only. -/
theorem flashByte_congr {s t : State} (hf : t.flash = s.flash) (hc : t.cfg = s.cfg) (a : Nat) :
    flashByte t a = flashByte s a := by
  simp [flashByte, hf, hc]

theorem flashStores_eq (a : Nat) (bs : Bytes) (s : State) :
    flashStores a bs s =
      if InFlash s a bs.length ∨ bs = [] then .ok { s with flash := s.flash.storeAll (some s.cfg.erasedByte) a bs }
      else .error .flashRangeOutside := by
  induction bs generalizing a s with
  | nil => simp [flashStores, Memory.storeAll]
  | cons b bs ih =>
    simp only [flashStores, flashStore]
    by_cases hi : InFlash s a 1
    · rw [if_pos hi, ok_bind, ih]
      simp only [Memory.storeAll, reduceCtorEq, or_false]
      cases bs with
      | nil => simp [Memory.storeAll, hi]
      | cons c cs =>
        simp only [reduceCtorEq, or_false, InFlash, List.length_cons] at hi ⊢
        congr 1
        simp; omega
    · rw [if_neg hi, error_bind, if_neg]
      simp only [reduceCtorEq, or_false, InFlash, List.length_cons] at hi ⊢
      omega

theorem flashStores_ok {a : Nat} {bs : Bytes} {s : State} (h : InFlash s a bs.length) :
    flashStores a bs s = .ok { s with flash := s.flash.storeAll (some s.cfg.erasedByte) a bs } := by
  rw [flashStores_eq, if_pos (.inl h)]

theorem flashStores_inv {a : Nat} {bs : Bytes} {s t : State} (h : flashStores a bs s = .ok t) :
    t = { s with flash := s.flash.storeAll (some s.cfg.erasedByte) a bs } ∧ (InFlash s a bs.length ∨ bs = []) := by
  rw [flashStores_eq] at h
  split at h <;> cases h
  exact ⟨rfl, by assumption⟩

/-- What a byte of the flash reads as after bytes have been stored. -/
theorem flashByte_storeAll (s : State) (a : Nat) (bs : Bytes) (x : Nat) :
    flashByte { s with flash := s.flash.storeAll (some s.cfg.erasedByte) a bs } x =
      if a ≤ x ∧ x < a + bs.length then bs.getD (x - a) 0 else flashByte s x := by
  simp [flashByte, Memory.getD_find?_storeAll]

/-- What a byte of the flash reads as after a range has been erased. -/
theorem flashByte_clear (s : State) (a n x : Nat) :
    flashByte { s with flash := s.flash.clear a n } x =
      if a ≤ x ∧ x < a + n then s.cfg.erasedByte else flashByte s x := by
  simp only [flashByte, Memory.find?_clear]
  split <;> simp

@[simp] theorem flashBytes_length (s : State) (a n : Nat) : (flashBytes s a n).length = n := by
  induction n generalizing a with
  | zero => rfl
  | succ n ih => simp [flashBytes, ih]

theorem flashBytes_getElem (s : State) (a n k : Nat) (h : k < (flashBytes s a n).length) :
    (flashBytes s a n)[k] = flashByte s (a + k) := by
  induction n generalizing a k with
  | zero => simp [flashBytes] at h
  | succ n ih =>
    cases k with
    | zero => simp [flashBytes]
    | succ k => simp [flashBytes, ih, Nat.add_assoc, Nat.add_comm 1 k]

/-- Ranges that read the same byte for byte read the same. -/
theorem flashBytes_congr {s t : State} {a b n : Nat} (h : ∀ k < n, flashByte s (a + k) = flashByte t (b + k)) :
    flashBytes s a n = flashBytes t b n := by
  apply List.ext_getElem (by simp)
  intro k h1 h2
  rw [flashBytes_getElem, flashBytes_getElem]
  exact h k (by simpa using h1)

theorem memRead_ok {s : State} {a n : Nat} (h : InFlash s a n) : memRead s a n = .ok (flashBytes s a n) := by
  rw [memRead, if_pos h]

theorem memRead16_ok {s : State} {a : Nat} (h : InFlash s a 2) : memRead16 s a = .ok (flashWord s a) := by
  simp only [InFlash] at h
  rw [memRead16, memRead_ok (by simp only [InFlash]; omega), ok_bind, memRead_ok (by simp only [InFlash]; omega), ok_bind]
  rfl

/-- The image check on an image that lies inside the flash (44 R201). -/
theorem imageInvalid_ok {s : State} {base : Nat} (hl : 2 ≤ s.cfg.imageLen) (h : InFlash s base s.cfg.imageLen) :
    imageInvalid s base =
      .ok (s.cfg.crc (flashBytes s base (s.cfg.imageLen - 2)) != flashWord s (base + (s.cfg.imageLen - 2))) := by
  simp only [InFlash] at h
  rw [imageInvalid, memRead_ok (by simp only [InFlash]; omega), ok_bind, memRead16_ok (by simp only [InFlash]; omega), ok_bind]
  rfl

theorem flashErase_ok {a : Nat} {s : State} (h : InFlash s (segmentBase s a) s.cfg.segSize) :
    flashErase a s = .ok { s with flash := s.flash.clear (segmentBase s a) s.cfg.segSize } := by
  rw [flashErase, if_pos h]

theorem flashErase_inv {a : Nat} {s t : State} (h : flashErase a s = .ok t) :
    t = { s with flash := s.flash.clear (segmentBase s a) s.cfg.segSize } ∧
      InFlash s (segmentBase s a) s.cfg.segSize := by
  unfold flashErase at h
  split at h <;> cases h
  exact ⟨rfl, by assumption⟩

/-- The bytes a word write leaves at `a` and `a + 1` (20 R58). -/
abbrev programmed (s : State) (a : Nat) (w : Word16) : Bytes :=
  [programByte s.cfg (flashByte s a) (lo8 w), programByte s.cfg (flashByte s (a + 1)) (hi8 w)]

theorem flashWriteWord_ok {a : Nat} {w : Word16} {s : State} (he : a % 2 = 0) (h : InFlash s a 2) :
    flashWriteWord a w s = .ok { s with flash := s.flash.storeAll (some s.cfg.erasedByte) a (programmed s a w) } := by
  rw [flashWriteWord, if_pos he, flashStores_ok h]

theorem flashWriteWord_inv {a : Nat} {w : Word16} {s t : State} (h : flashWriteWord a w s = .ok t) :
    t = { s with flash := s.flash.storeAll (some s.cfg.erasedByte) a (programmed s a w) } ∧ InFlash s a 2 := by
  unfold flashWriteWord at h
  split at h
  · obtain ⟨rfl, hr⟩ := flashStores_inv h
    exact ⟨rfl, hr.resolve_right (by simp)⟩
  · cases h

/-! ### Frames and replies -/

@[simp] theorem crcField_length (c : Config) (bs : Bytes) : (c.crcField bs).length = 2 := rfl

@[simp] theorem frameImage_length (c : Config) (source target cmd : Byte) (payload : Bytes) :
    (frameImage c source target cmd payload).length = payload.length + 7 := by
  simp [frameImage, Config.crcField]

theorem BufHolds_storeAll (s : State) (i : Nat) (bs : Bytes) :
    BufHolds { s with buf := s.buf.storeAll none i bs } i bs := fun _ hk => Memory.find?_storeAll_none bs s.buf hk

/-- The bytes of a frame that its CRC covers, as the composer writes them (the header, the payload, then the length byte),
are those bytes written in rising order. -/
theorem storeAll_covered (b0 b1 b2 len : Byte) (payload : Bytes) (m : Memory) :
    Memory.store none 3 len (Memory.storeAll none 4 payload (Memory.storeAll none 0 [b0, b1, b2] m)) =
      Memory.storeAll none 0 ([b0, b1, b2, len] ++ payload) m := by
  rw [Memory.store_none_storeAll payload (by omega), Memory.storeAll_append]
  rfl

/-- The CRC and END written after the covered bytes complete the frame. -/
theorem storeAll_frameImage (c : Config) (source target cmd : Byte) (payload : Bytes) (m : Memory) :
    Memory.storeAll none (payload.length + 4)
        (c.crcField ([source, target, cmd, BitVec.ofNat 8 (payload.length + 6)] ++ payload) ++ [c.endByte])
        (Memory.storeAll none 0 ([source, target, cmd, BitVec.ofNat 8 (payload.length + 6)] ++ payload) m) =
      Memory.storeAll none 0 (frameImage c source target cmd payload) m := by
  have h := Memory.storeAll_append none 0 ([source, target, cmd, BitVec.ofNat 8 (payload.length + 6)] ++ payload)
    (c.crcField ([source, target, cmd, BitVec.ofNat 8 (payload.length + 6)] ++ payload) ++ [c.endByte]) m
  rw [← List.append_assoc] at h
  rw [frameImage, h]
  simp

/-- The conditions under which a reply of `n` payload bytes is composed: a request whose source is in `buf[0]`, and room
for the reply (42 R146, 00 R9). -/
abbrev CanReply (s : State) (n : Nat) : Prop :=
  (s.buf.find? 0).isSome = true ∧ n ≤ s.cfg.maxPayload ∧ n ≤ 249 ∧ n + 7 ≤ s.cfg.bufSize

theorem finalize_ok {code source : Byte} {payload : Bytes} {s : State} (hn : payload.length ≤ 249)
    (hb : payload.length + 7 ≤ s.cfg.bufSize) :
    finalize
        ⟨{ s with buf := Memory.storeAll none 4 payload (Memory.storeAll none 0 [s.cfg.devAddr, source, code] s.buf) },
          4 + payload.length⟩ = .ok (replied code source payload s) := by
  have hb' : ¬(255 < 4 + payload.length + 2 ∨ s.cfg.bufSize < 4 + payload.length + 2 + 1) := by omega
  simp only [finalize, if_neg hb']
  rw [bufStore, if_pos (by show 3 < s.cfg.bufSize; omega), ok_bind]
  rw [show 4 + payload.length + 2 = payload.length + 6 by omega]
  simp only [storeAll_covered]
  have hread := bufBytes_holds (BufHolds_storeAll s 0
    ([s.cfg.devAddr, source, code, BitVec.ofNat 8 (payload.length + 6)] ++ payload))
  have hlen : ([s.cfg.devAddr, source, code, BitVec.ofNat 8 (payload.length + 6)] ++ payload).length =
      payload.length + 6 - 2 := by simp
  rw [hlen] at hread
  rw [hread, ok_bind, bufStores_ok (by simp; omega), ok_bind]
  rw [show payload.length + 6 - 2 = payload.length + 4 by omega]
  simp only [storeAll_frameImage, pure_eq_ok]
  rfl

theorem replyStart_ok {code source : Byte} {s : State} (hb : 3 ≤ s.cfg.bufSize) (hs : s.buf.find? 0 = some source) :
    replyStart code s =
      .ok ⟨{ s with buf := Memory.storeAll none 0 [s.cfg.devAddr, source, code] s.buf }, 4⟩ := by
  rw [replyStart, bufByte_ok hs, ok_bind, bufStores_ok (by simpa using hb), ok_bind, pure_eq_ok]

theorem appendBlock_ok {payload : Bytes} {r : Reply} (hm : r.wc + payload.length ≤ 4 + r.st.cfg.maxPayload)
    (hb : r.wc + payload.length ≤ r.st.cfg.bufSize) :
    appendBlock payload r =
      .ok ⟨{ r.st with buf := Memory.storeAll none r.wc payload r.st.buf }, r.wc + payload.length⟩ := by
  rw [appendBlock, payloadCheck, if_neg (by omega), ok_bind, bufStores_ok hb, ok_bind, pure_eq_ok]

theorem appendBlock_inv {payload : Bytes} {r r' : Reply} (h : appendBlock payload r = .ok r') :
    r.wc + payload.length ≤ 4 + r.st.cfg.maxPayload ∧
      r' = ⟨{ r.st with buf := Memory.storeAll none r.wc payload r.st.buf }, r.wc + payload.length⟩ := by
  obtain ⟨q, hq, h⟩ := bind_ok h
  obtain ⟨s, hs, h⟩ := bind_ok h
  unfold payloadCheck at hq
  split at hq <;> cases hq
  cases bufStores_inv hs
  cases h
  exact ⟨by omega, rfl⟩

/-- A composition under `CanReply` leaves the state `replied`. -/
theorem reply_ok {code source : Byte} {payload : Bytes} {s : State} (h : CanReply s payload.length)
    (hs : s.buf.find? 0 = some source) : reply code payload s = .ok (replied code source payload s) := by
  obtain ⟨-, h1, h2, h3⟩ := h
  have ha := appendBlock_ok (payload := payload)
    (r := ⟨{ s with buf := Memory.storeAll none 0 [s.cfg.devAddr, source, code] s.buf }, 4⟩)
    (by simpa using h1) (by simp only; omega)
  have hf := finalize_ok (code := code) (source := source) (s := s) h2 h3
  rw [reply, replyStart_ok (by omega) hs, ok_bind, ha, ok_bind, hf]

/-- What a composition leaves when it succeeds. -/
theorem reply_inv {code : Byte} {payload : Bytes} {s t : State} (h : reply code payload s = .ok t) :
    ∃ source, s.buf.find? 0 = some source ∧ CanReply s payload.length ∧ t = replied code source payload s := by
  have h' := h
  obtain ⟨r, hr, h⟩ := bind_ok h
  obtain ⟨r', hr', h⟩ := bind_ok h
  obtain ⟨source, hs, hr⟩ := bind_ok hr
  obtain ⟨s1, hs1, hr⟩ := bind_ok hr
  have hs0 := bufByte_inv hs
  cases bufStores_inv hs1
  cases hr
  obtain ⟨hmax, rfl⟩ := appendBlock_inv hr'
  simp only [finalize] at h
  split at h
  · cases h
  rename_i hb
  have hcan : CanReply s payload.length := by
    refine ⟨by simp [hs0], ?_, ?_, ?_⟩
    · simp only at hmax; omega
    · omega
    · omega
  refine ⟨source, hs0, hcan, ?_⟩
  rw [reply_ok hcan hs0] at h'
  cases h'
  rfl

@[simp] theorem replyString_eq (code : Byte) (str : Bytes) (s : State) :
    replyString code str s = reply code (terminated str) s := rfl

@[simp] theorem replyStatus_eq (status : Byte) (s : State) : replyStatus status s = reply s.cfg.ackCode [status] s := by
  unfold replyStatus reply
  rfl

/-! ### Draws -/

@[simp] theorem drawBytes_length (n : Nat) (given : Bytes) (s : State) : (drawBytes n given s).1.length = n := by
  simp [drawBytes]
  omega

/-- Bytes the environment gives in full are taken as they are. -/
theorem drawBytes_given {given : Bytes} (s : State) : drawBytes given.length given s = (given, s) := by
  simp [drawBytes]

theorem drawBytes_state (n : Nat) (given : Bytes) (s : State) :
    (drawBytes n given s).2 = { s with draws := s.draws + (n - given.length) } := rfl

end Sys2Proof.Machine
end

