-- ==== Sys2Proof/Certificates/Slice0/Obligations.lean ====
section
/-! DEFINITION. The statements for the provers. Rule numbers are those of spec/; "log n" is notes/assumptions/n.md. -/

section

open Sys2Proof Sys2Proof.Machine

/-! ### Configuration, steps, encoding -/

/-- 00 R11 (with the constraints of R9): any other configuration is refused, and an admitted one never is. -/
def Obligations.OnlyAdmittedConfigurationsRun : Prop :=
  ∀ s : State, step s = .refused .configRefused ↔ ¬
    ([s.cfg.cmdRead, s.cfg.cmdWrite, s.cfg.cmdWriteThenRead, s.cfg.ackCode, s.cfg.nackCode].Nodup ∧
      [s.cfg.locFwId, s.cfg.locCompiler, s.cfg.locTarget, s.cfg.locControlStatus, s.cfg.locFwBlock,
        s.cfg.locReflash].Nodup ∧
      [s.cfg.stOk, s.cfg.stBadAddress, s.cfg.stWriteFailed, s.cfg.stBadCrc].Nodup ∧
      256 ≤ s.cfg.bufSize ∧ s.cfg.maxPayload = 249 ∧ 1 ≤ s.cfg.gapTicks ∧ 1 ≤ s.cfg.uartDepth ∧
      s.cfg.statusSize ≤ 249 ∧
      (∀ str ∈ [s.cfg.fwIdStr, s.cfg.compilerStr, s.cfg.targetStr], 0 ∉ str ∧ str.length ≤ 248) ∧
      2 ≤ s.cfg.segSize ∧ 2 ∣ s.cfg.segSize ∧ 4 ≤ s.cfg.imageLen ∧
      (∀ n ∈ [s.cfg.flashBase, s.cfg.originBase, s.cfg.destBase, s.cfg.imageLen], s.cfg.segSize ∣ n) ∧
      s.cfg.flashBase ≤ s.cfg.originBase ∧ s.cfg.originBase + s.cfg.imageLen ≤ s.cfg.destBase ∧
      s.cfg.flashEnd = s.cfg.destBase + s.cfg.imageLen ∧ s.cfg.flashEnd ≤ 0x10000 ∧
      (∀ a, (s.cfg.originBase ≤ a ∧ a < s.cfg.originBase + s.cfg.imageLen) ∨
          (s.cfg.destBase ≤ a ∧ a < s.cfg.flashEnd) → s.cfg.flashBase ≤ a ∧ a < s.cfg.flashEnd) ∧
      ¬ ∃ a, (s.cfg.originBase ≤ a ∧ a < s.cfg.originBase + s.cfg.imageLen) ∧
        s.cfg.destBase ≤ a ∧ a < s.cfg.flashEnd)

/-- 00 R6, R7: a step takes the next event of the script whole. With no script it takes the environment's free choice
(the model's: log 3). -/
def Obligations.StepTakesTheNextScriptedEvent : Prop :=
  ∀ s : State, s.cfg.Admitted →
    (∀ e rest, s.script = .event e :: rest → step s = exec e.instr { s with script := rest }) ∧
    (s.script = [] → step s = exec (Config.freeEvent s.draws).instr { s with draws := s.draws + 1 })

/-- 30 R98, R99: SNAP is no event, DRAIN is the eager schedule, and FLASH steps the engine until it rests. That they are
taken one event at a time is the model's form of them (log 21). -/
def Obligations.ScriptItemsAreScheduled : Prop :=
  ∀ (s : State) (rest : List Stimulus),
    (∀ bytes, s.script = .snap bytes :: rest →
      step s = step { s with snapQueue := s.snapQueue ++ [bytes], script := rest }) ∧
    (s.cfg.Admitted → s.script = .drain :: rest →
      (TxReadyEnabled s → step s = exec .txReady s) ∧
      (¬ TxReadyEnabled s → s.uartFifo ≠ [] → step s = exec .uartShiftOut s) ∧
      (¬ TxReadyEnabled s → s.uartFifo = [] → step s = step { s with script := rest })) ∧
    (s.cfg.Admitted → s.script = .flash :: rest →
      (s.feState ≠ .idle → s.feState ≠ .rebooted → step s = exec .flashStep s) ∧
      (s.feState = .idle ∨ s.feState = .rebooted → step s = step { s with script := rest }))

/-- 41 R131, 43 R170: where the bytes in the buffer decode to a frame command, the step that takes POLL is that command's
meaning, on the state with `rx_ie` down, `poll_result` up and the record FRAME appended. -/
def Obligations.StepRunsTheDecodedFrame : Prop :=
  ∀ (s : State) (frame : Bytes) (rest : List Stimulus) (i : Instr),
    s.cfg.Admitted → s.script = .event .poll :: rest → FrameArrived s frame →
    decodeFrame s.cfg s.flashErr frame = .ok i →
    step s = exec i (emit (.frame (frame.getD 0 0) (frame.getD 2 0) ((frame.drop 4).take (frame.length - 7)))
      { s with script := rest, pollResult := true, rxIe := false })

/-- 30 R94, R98, spec/opcode_table.json: table keys, wire bytes of 95 part 2 and script lines, each decoded. How a table
key is read is the model's choice (log 13): 16 bits are a frame with the payload [loc], 8 bits a frame with an empty
payload, from source 0 to this device, with `flash_err` 0. -/
def Obligations.WrittenOutWordsDecode : Prop :=
  decodeTableWord 16 0x5200 = some (.readFwId []) ∧
  decodeTableWord 16 0x5201 = some (.readCompiler []) ∧
  decodeTableWord 16 0x5703 = some (.writeControlStatus []) ∧
  decodeTableWord 16 0x5803 = some (.writeThenReadControlStatus []) ∧
  decodeTableWord 16 0x5704 = some (.writeFwBlock []) ∧
  decodeTableWord 16 0x5705 = some (.writeReflash []) ∧
  decodeTableWord 16 0x5700 = some (.unknownPair 0x57 0x00 []) ∧
  decodeTableWord 8 0x52 = some (.emptyPayload 0x52) ∧
  decodeWire Config.ref true [0x02, 0x01, 0x10, 0x52, 0x07, 0x05, 0x66, 0x59, 0x03] = .ok (.degradedRead [0x05]) ∧
  decodeWire Config.ref true [0x02, 0x01, 0x10, 0x58, 0x08, 0x03, 0x09, 0xC9, 0xD2, 0x03] =
    .ok (.degradedWriteThenRead [0x03, 0x09]) ∧
  decode Config.ref false (.line ['R', 'X', ' ', '5', '5']) = .ok (.rxByte 0x55) ∧
  decode Config.ref false (.line ['P', 'F', 'A', 'I', 'L', ' ', '0', '0', ' ', 'A', '5']) = .ok (.powerFail [0x00, 0xA5]) ∧
  decodeWire Config.ref false [0x02, 0x01, 0x10, 0x52, 0x07, 0x00, 0xC3, 0x09, 0x04] = .error .badEnd ∧
  decodeWire Config.ref false [0x02, 0x01, 0x20, 0x52, 0x07, 0x00, 0x2A, 0x25, 0x03] = .error .foreign ∧
  decodeWire Config.ref false [0x02, 0x01, 0x10, 0x52, 0x07, 0x00, 0xC2, 0x09, 0x03] = .error .badCrc

/-- 30 R80 to R98: decoding the encoding of any well-formed instruction gives it back, with every operand at every value,
from any source address. The degraded rows are those of a block whose `flash_err` is 1 (30 R97). -/
def Obligations.DecodeUndoesEncode : Prop :=
  ∀ (c : Config) (source : Byte) (i : Instr), c.Admitted → i.wf c = true →
    decode c i.needsFlashErr (encode c source i) = .ok i

/-- 30 R80 to R96: the other direction. A buffer that decodes to an instruction starts with that instruction's frame, so
no two frames mean one instruction, and what is decoded is well formed. -/
def Obligations.DecodedFramesAreTheirEncoding : Prop :=
  ∀ (c : Config) (flashErr : Bool) (buf : Bytes) (i : Instr), c.Admitted →
    decodeFrame c flashErr buf = .ok i →
    ∃ cmd payload, i.frame c = some (cmd, payload) ∧ i.wf c = true ∧
      buf.take (payload.length + 7) = frameImage c (buf.getD 0 0) c.devAddr cmd payload

/-- 30 R94: the router takes the first row that applies, in the order of the table. -/
def Obligations.OpcodeMapTakesTheFirstRow : Prop :=
  ∀ c : Config, c.Admitted →
    (∀ payload, decodeCommand c true c.cmdRead payload = .degradedRead payload ∧
      decodeCommand c true c.cmdWriteThenRead payload = .degradedWriteThenRead payload) ∧
    (∀ (flashErr : Bool) (cmd : Byte),
      ¬ (flashErr = true ∧ (cmd = c.cmdRead ∨ cmd = c.cmdWriteThenRead)) →
      decodeCommand c flashErr cmd [] = .emptyPayload cmd ∧
      ∀ (loc : Byte) (rest : Bytes),
        (cmd = c.cmdRead → loc = c.locFwId → decodeCommand c flashErr cmd (loc :: rest) = .readFwId rest) ∧
        (cmd = c.cmdRead → loc = c.locCompiler → decodeCommand c flashErr cmd (loc :: rest) = .readCompiler rest) ∧
        (cmd = c.cmdRead → loc = c.locTarget → decodeCommand c flashErr cmd (loc :: rest) = .readTarget rest) ∧
        (cmd = c.cmdRead → loc = c.locControlStatus →
          decodeCommand c flashErr cmd (loc :: rest) = .readControlStatus rest) ∧
        (cmd = c.cmdWrite → loc = c.locControlStatus →
          decodeCommand c flashErr cmd (loc :: rest) = .writeControlStatus rest) ∧
        (cmd = c.cmdWriteThenRead → loc = c.locControlStatus →
          decodeCommand c flashErr cmd (loc :: rest) = .writeThenReadControlStatus rest) ∧
        (cmd = c.cmdWrite → loc = c.locFwBlock → decodeCommand c flashErr cmd (loc :: rest) = .writeFwBlock rest) ∧
        (cmd = c.cmdWrite → loc = c.locReflash → decodeCommand c flashErr cmd (loc :: rest) = .writeReflash rest) ∧
        ((cmd, loc) ∉ [(c.cmdRead, c.locFwId), (c.cmdRead, c.locCompiler), (c.cmdRead, c.locTarget),
            (c.cmdRead, c.locControlStatus), (c.cmdWrite, c.locControlStatus),
            (c.cmdWriteThenRead, c.locControlStatus), (c.cmdWrite, c.locFwBlock), (c.cmdWrite, c.locReflash)] →
          decodeCommand c flashErr cmd (loc :: rest) = .unknownPair cmd loc rest))

/-! ### The router -/

/-- 43 R171: while `flash_err` is 1 every READ and WRITE_THEN_READ is answered NACK and "Bad CRC" with its terminator;
the controls of a WRITE_THEN_READ of control/status are applied first; WRITE frames are not degraded. -/
def Obligations.DegradedReadsGetBadCrc : Prop :=
  ∀ (s : State) (source : Byte), Served s source →
    (∀ payload, decodeCommand s.cfg true s.cfg.cmdRead payload = .degradedRead payload ∧
      decodeCommand s.cfg true s.cfg.cmdWriteThenRead payload = .degradedWriteThenRead payload ∧
      decodeCommand s.cfg true s.cfg.cmdWrite payload = decodeCommand s.cfg false s.cfg.cmdWrite payload) ∧
    (∀ payload, exec (.degradedRead payload) s =
      .next (replied s.cfg.nackCode source [0x42, 0x61, 0x64, 0x20, 0x43, 0x52, 0x43, 0x00] s)) ∧
    (∀ ctrl, exec (.degradedWriteThenRead (s.cfg.locControlStatus :: ctrl)) s =
      .next (replied s.cfg.nackCode source [0x42, 0x61, 0x64, 0x20, 0x43, 0x52, 0x43, 0x00] (emit (.ctrl ctrl) s))) ∧
    (∀ payload, payload.head? ≠ some s.cfg.locControlStatus → exec (.degradedWriteThenRead payload) s =
      .next (replied s.cfg.nackCode source [0x42, 0x61, 0x64, 0x20, 0x43, 0x52, 0x43, 0x00] s))

/-- 43 R172, R181: a frame with no location byte, and a pair that no other row takes, are answered by an empty NACK. -/
def Obligations.EmptyAndUnknownCommandsGetANack : Prop :=
  ∀ (s : State) (source : Byte), Served s source →
    (∀ cmd, exec (.emptyPayload cmd) s = .next (replied s.cfg.nackCode source [] s)) ∧
    (∀ cmd loc rest, exec (.unknownPair cmd loc rest) s = .next (replied s.cfg.nackCode source [] s)) ∧
    (∀ flashErr cmd, ¬ (flashErr = true ∧ (cmd = s.cfg.cmdRead ∨ cmd = s.cfg.cmdWriteThenRead)) →
      decodeCommand s.cfg flashErr cmd [] = .emptyPayload cmd ∧
      ∀ loc rest, s.cfg.pairHandled cmd loc = false →
        decodeCommand s.cfg flashErr cmd (loc :: rest) = .unknownPair cmd loc rest)

/-- 43 R173 to R175: the identity strings, each an ACK with the string and a zero byte, whatever follows the location. -/
def Obligations.IdentityReadsReturnTheirStrings : Prop :=
  ∀ (s : State) (source : Byte), Served s source →
    (∀ rest, decodeCommand s.cfg false s.cfg.cmdRead (s.cfg.locFwId :: rest) = .readFwId rest ∧
      decodeCommand s.cfg false s.cfg.cmdRead (s.cfg.locCompiler :: rest) = .readCompiler rest ∧
      decodeCommand s.cfg false s.cfg.cmdRead (s.cfg.locTarget :: rest) = .readTarget rest) ∧
    (∀ extra, exec (.readFwId extra) s = .next (replied s.cfg.ackCode source (s.cfg.fwIdStr ++ [0x00]) s)) ∧
    (∀ extra, exec (.readCompiler extra) s = .next (replied s.cfg.ackCode source (s.cfg.compilerStr ++ [0x00]) s)) ∧
    (∀ extra, exec (.readTarget extra) s = .next (replied s.cfg.ackCode source (s.cfg.targetStr ++ [0x00]) s))

/-- 43 R176, 10 R24, 30 R98: a snapshot of `STATUS_SIZE` bytes is drawn, recorded, and returned under an ACK. The bytes
are the environment's: the first queued answer (30 R98) where it has the right size, and otherwise free. How the queue is
held and consumed is the model's choice (log 5). -/
def Obligations.ReadControlStatusReturnsASnapshot : Prop :=
  ∀ (s : State) (source : Byte) (extra : Bytes), Served s source →
    decodeCommand s.cfg false s.cfg.cmdRead (s.cfg.locControlStatus :: extra) = .readControlStatus extra ∧
    (∃ snap draws, snap.length = s.cfg.statusSize ∧
      exec (.readControlStatus extra) s = .next (replied s.cfg.ackCode source snap
        (emit (.snap snap) { s with snapQueue := s.snapQueue.tail, draws := draws }))) ∧
    ∀ snap queue, s.snapQueue = snap :: queue → snap.length = s.cfg.statusSize →
      exec (.readControlStatus extra) s = .next (replied s.cfg.ackCode source snap
        (emit (.snap snap) { s with snapQueue := queue }))

/-- 43 R177: the control bytes are passed on unchanged, and the reply is an empty ACK. Not degraded by `flash_err`. -/
def Obligations.WriteControlStatusAppliesTheControls : Prop :=
  ∀ (s : State) (source : Byte) (ctrl : Bytes), Served s source →
    (∀ flashErr, decodeCommand s.cfg flashErr s.cfg.cmdWrite (s.cfg.locControlStatus :: ctrl) =
      .writeControlStatus ctrl) ∧
    exec (.writeControlStatus ctrl) s = .next (replied s.cfg.ackCode source [] (emit (.ctrl ctrl) s))

/-- 43 R178, 10 R24, 30 R98: the controls first, then the snapshot, which the reply carries. The snapshot's bytes are as in
R176, and how the queue of answers is held and consumed is the model's choice (log 5). -/
def Obligations.WriteThenReadAppliesThenSnapshots : Prop :=
  ∀ (s : State) (source : Byte) (ctrl : Bytes), Served s source →
    decodeCommand s.cfg false s.cfg.cmdWriteThenRead (s.cfg.locControlStatus :: ctrl) =
      .writeThenReadControlStatus ctrl ∧
    (∃ snap draws, snap.length = s.cfg.statusSize ∧
      exec (.writeThenReadControlStatus ctrl) s = .next (replied s.cfg.ackCode source snap
        { s with
          snapQueue := s.snapQueue.tail
          draws := draws
          hostLog := s.hostLog ++ [.ctrl ctrl, .snap snap] })) ∧
    ∀ snap queue, s.snapQueue = snap :: queue → snap.length = s.cfg.statusSize →
      exec (.writeThenReadControlStatus ctrl) s = .next (replied s.cfg.ackCode source snap
        { s with snapQueue := queue, hostLog := s.hostLog ++ [.ctrl ctrl, .snap snap] })

/-- 43 R179, 44 R214: the block-write arbiter. A payload that is not `4 + len` bytes gets a NACK; an address that is odd,
below `FLASH_BASE`, or with `addr + len ≥ DEST_BASE` gets `ST_BAD_ADDRESS`; any other block starts, with no reply. -/
def Obligations.FirmwareBlockIsArbitrated : Prop :=
  ∀ (s : State) (source : Byte), Served s source →
    (∀ block : Bytes, block.length + 1 < 4 ∨ block.length + 1 ≠ 4 + (block.getD 2 0).toNat →
      exec (.writeFwBlock block) s = .next (replied s.cfg.nackCode source [] s)) ∧
    (∀ (lo hi n : Byte) (data : Bytes), data.length = n.toNat →
      (((le16 lo hi).toNat % 2 ≠ 0 ∨ (le16 lo hi).toNat < s.cfg.flashBase ∨
          s.cfg.destBase ≤ (le16 lo hi).toNat + n.toNat) →
        exec (.writeFwBlock (lo :: hi :: n :: data)) s =
          .next (replied s.cfg.ackCode source [s.cfg.stBadAddress] s)) ∧
      ((le16 lo hi).toNat % 2 = 0 → s.cfg.flashBase ≤ (le16 lo hi).toNat →
        (le16 lo hi).toNat + n.toNat < s.cfg.destBase →
        exec (.writeFwBlock (lo :: hi :: n :: data)) s =
          .next { s with
            feState := .blockWrite
            bwAddr := le16 lo hi
            bwLen := n
            feOff := 0
            feOp := if (le16 lo hi).toNat % s.cfg.segSize = 0 then .erase
              else if 0 < n.toNat then .write else .verify })) ∧
    (le16 0x34 0x12).toNat = 0x1234

/-- 43 R180, 44 R207: an invalid backup is answered `ST_BAD_CRC`; a valid one starts the reflash with no reply, and
`gie` falls to 0. -/
def Obligations.ReflashTriggerChecksTheBackup : Prop :=
  ∀ (s : State) (source : Byte) (extra : Bytes), Served s source →
    (ImageBad s s.cfg.originBase →
      exec (.writeReflash extra) s = .next (replied s.cfg.ackCode source [s.cfg.stBadCrc] s)) ∧
    (¬ ImageBad s s.cfg.originBase →
      exec (.writeReflash extra) s =
        .next { s with feState := .reflashing, feOp := .erase, feSeg := 0, feOff := 0 } ∧
      gie { s with feState := .reflashing, feOp := .erase, feSeg := 0, feOff := 0 } = false)

/-- 43 R170: the router's entry and exit. Entered from a validated frame with `rx_ie` = 0, it completes, and on exit a
reply is finalized, or a block write has started, or a reflash has; no flash byte has changed. -/
def Obligations.RouterLeavesOneOfThreeStates : Prop :=
  ∀ (s : State) (frame : Bytes) (i : Instr), s.cfg.Admitted → FrameArrived s frame → s.rxIe = false →
    decodeFrame s.cfg s.flashErr frame = .ok i →
    ∃ t, exec i s = .next t ∧ t.rxIe = false ∧ (∀ a, flashByte t a = flashByte s a) ∧
      ((t.txPhase = .pre ∧ t.feState = .idle ∧ t.txIndex = 0 ∧ 8 ≤ t.txSize ∧ Written t 0 (t.txSize - 1)) ∨
       (t.txPhase = .idle ∧ t.feState = .blockWrite ∧ i = .writeFwBlock ((frame.drop 5).take (frame.length - 8))) ∨
       (t.txPhase = .idle ∧ t.feState = .reflashing ∧ i = .writeReflash ((frame.drop 5).take (frame.length - 8))))

/-- What the twelve frame commands leave unchanged (20 R52, 43 R171 to R181). The buffer changes only below the reply's
last byte, `buf[0 .. tx_size - 1)` of the reply composed, and not at all where none is. -/
def Obligations.FrameCommandsLeaveTheRestUnchanged : Prop :=
  ∀ (i : Instr) (s t : State), (i.frame s.cfg).isSome = true → exec i s = .next t →
    (t.cfg = s.cfg ∧ t.rxActive = s.rxActive ∧ t.rxCursor = s.rxCursor ∧ t.rxIe = s.rxIe ∧
      t.gapTimer = s.gapTimer ∧ t.txIe = s.txIe ∧ t.uartFifo = s.uartFifo ∧ t.badCrcCount = s.badCrcCount ∧
      t.flashErr = s.flashErr ∧ t.booted = s.booted ∧ t.pollResult = s.pollResult ∧ t.wireOut = s.wireOut ∧
      t.script = s.script) ∧
    (∀ a, flashByte t a = flashByte s a) ∧
    ((∀ a, t.buf.find? a = s.buf.find? a) ∧ t.txPhase = s.txPhase ∧ t.txIndex = s.txIndex ∧ t.txSize = s.txSize ∧
        t.guardTimer = s.guardTimer ∧ ((∃ b, i = .writeFwBlock b) ∨ ∃ e, i = .writeReflash e) ∨
      t.txPhase = .pre ∧ (∀ a, t.txSize - 1 ≤ a → t.buf.find? a = s.buf.find? a) ∧
        t.feState = s.feState ∧ t.feOp = s.feOp ∧ t.feSeg = s.feSeg ∧ t.feOff = s.feOff ∧ t.bwAddr = s.bwAddr ∧
        t.bwLen = s.bwLen) ∧
    ((∃ e, i = .readControlStatus e) ∨ (∃ c, i = .writeThenReadControlStatus c) ∨
      (t.snapQueue = s.snapQueue ∧ t.draws = s.draws)) ∧
    ((∃ e, i = .readControlStatus e) ∨ (∃ c, i = .writeThenReadControlStatus c) ∨ (∃ c, i = .writeControlStatus c) ∨
      (∃ p, i = .degradedWriteThenRead p) ∨ t.hostLog = s.hostLog)

/-! ### The composer -/

/-- 30 R80 to R86, 42 R140 to R148: `replied`, the state the statements above name, holds the frame of 30 R81 in `buf`,
its wire image is that of 30 R80, and nothing else but the transmitter's elements has changed. -/
def Obligations.ComposedReplyIsAFrame : Prop :=
  ∀ (s : State) (code source : Byte) (payload : Bytes), s.cfg.Admitted → payload.length ≤ 249 →
    ∀ t, t = replied code source payload s →
      t = { s with buf := t.buf, txSize := payload.length + 8, txIndex := 0, txPhase := .pre,
                   guardTimer := s.cfg.guardPreTicks } ∧
      t.buf.find? 0 = some s.cfg.devAddr ∧ t.buf.find? 1 = some source ∧ t.buf.find? 2 = some code ∧
      (∃ len : Byte, t.buf.find? 3 = some len ∧ len.toNat = payload.length + 6) ∧
      (∀ k (h : k < payload.length), t.buf.find? (4 + k) = some payload[k]) ∧
      (∃ covered, covered.length = payload.length + 4 ∧ BufHolds t 0 covered ∧
        t.buf.find? (payload.length + 4) = some (lo8 (s.cfg.crc covered)) ∧
        t.buf.find? (payload.length + 5) = some (hi8 (s.cfg.crc covered))) ∧
      t.buf.find? (payload.length + 6) = some s.cfg.endByte ∧
      (∀ a, payload.length + 7 ≤ a → t.buf.find? a = s.buf.find? a) ∧
      wireByte t 0 = .ok s.cfg.startByte ∧
      (∀ k (h : k < payload.length + 8),
        wireByte t k = .ok ((frameWire s.cfg s.cfg.devAddr source code payload).getD k 0))

/-- 42 R147: `finalize()` writes the length, the CRC of `buf[0 .. L - 2)` low byte first, and END, and arms the
pre-turnaround delay; `tx_size` = L + 2. -/
def Obligations.FinalizeCompletesTheReply : Prop :=
  ∀ r : Reply, r.st.cfg.Admitted → 4 ≤ r.wc → r.wc ≤ 4 + r.st.cfg.maxPayload →
    Written r.st 0 3 → Written r.st 4 (r.wc - 4) →
    ∃ covered t, finalize r = .ok t ∧ covered.length = r.wc ∧
      (∀ k < r.wc, k ≠ 3 → r.st.buf.find? k = some (covered.getD k 0)) ∧
      (covered.getD 3 0).toNat = r.wc + 2 ∧
      BufHolds t 0 (covered ++ [lo8 (r.st.cfg.crc covered), hi8 (r.st.cfg.crc covered), r.st.cfg.endByte]) ∧
      (∀ a, r.wc + 2 < a → t.buf.find? a = r.st.buf.find? a) ∧
      t = { r.st with buf := t.buf, txSize := r.wc + 4, txIndex := 0, txPhase := .pre,
                      guardTimer := r.st.cfg.guardPreTicks }

/-- 42 R141 to R145: each append writes its bytes at `buf[wc ..]` and advances `wc`, unless the payload limit is passed,
which is the fault `ReplyOverflow`. -/
def Obligations.AppendsWriteTheirBytes : Prop :=
  ∀ (r : Reply) (op : Reply → Except Fault Reply) (bytes : Bytes),
    (∃ v, op = appendByte v ∧ bytes = [v]) ∨
    (∃ w : Word16, op = appendWord w ∧ bytes = [w.extractLsb' 0 8, w.extractLsb' 8 8]) ∨
    (∃ str, op = appendString str ∧ bytes = str ++ [0x00]) ∨
    (∃ n, op = appendZeros n ∧ bytes = List.replicate n 0x00) ∨
    op = appendBlock bytes →
    (r.wc + bytes.length > 4 + r.st.cfg.maxPayload → op r = .error .replyOverflow) ∧
    (r.wc + bytes.length ≤ 4 + r.st.cfg.maxPayload → r.wc + bytes.length ≤ r.st.cfg.bufSize →
      ∃ t, op r = .ok ⟨t, r.wc + bytes.length⟩ ∧ t = { r.st with buf := t.buf } ∧ BufHolds t r.wc bytes ∧
        ∀ a, a < r.wc ∨ r.wc + bytes.length ≤ a → t.buf.find? a = r.st.buf.find? a)

/-! ### The receiver -/

/-- 41 R122, R123: what a byte on the line does, in every case. -/
def Obligations.ReceivedBytesAreStoredOrLost : Prop :=
  ∀ (s : State) (b : Byte), s.cfg.Admitted →
    ((gie s = false ∨ s.rxIe = false) → exec (.rxByte b) s = .next s) ∧
    (gie s = true → s.rxIe = true →
      (s.rxActive = false → b ≠ s.cfg.startByte → exec (.rxByte b) s = .next s) ∧
      (s.rxActive = false → b = s.cfg.startByte →
        exec (.rxByte b) s = .next { s with rxActive := true, rxCursor := 0, gapTimer := s.cfg.gapTicks }) ∧
      (s.rxActive = true → s.rxCursor < s.cfg.bufSize →
        ∃ t, exec (.rxByte b) s = .next t ∧
          t = { s with buf := t.buf, rxCursor := s.rxCursor + 1, gapTimer := s.cfg.gapTicks } ∧
          t.buf.find? s.rxCursor = some b ∧ ∀ a, a ≠ s.rxCursor → t.buf.find? a = s.buf.find? a) ∧
      (s.rxActive = true → s.cfg.bufSize ≤ s.rxCursor →
        exec (.rxByte b) s = .next { s with gapTimer := s.cfg.gapTicks }))

/-- 41 R125: both timers count down by one and stop at 0 while `gie` = 1, and do not move while `gie` = 0. -/
def Obligations.TickCountsBothTimersDown : Prop :=
  ∀ s : State, (gie s = false → exec .tick s = .next s) ∧
    (gie s = true → ∃ t, exec .tick s = .next t ∧
      t = { s with gapTimer := t.gapTimer, guardTimer := t.guardTimer } ∧
      (s.gapTimer = 0 → t.gapTimer = 0) ∧ (0 < s.gapTimer → t.gapTimer + 1 = s.gapTimer) ∧
      (s.guardTimer = 0 → t.guardTimer = 0) ∧ (0 < s.guardTimer → t.guardTimer + 1 = s.guardTimer))

/-- 10 R27: `gie`, and what it masks. -/
def Obligations.InterruptsAreMaskedWhileGieIsClear : Prop :=
  ∀ s : State, (gie s = true ↔ s.booted = true ∧ s.feState ≠ .reflashing ∧ s.feState ≠ .rebooted) ∧
    (gie s = false → (∀ b, exec (.rxByte b) s = .next s) ∧ exec .tick s = .next s ∧ ¬ TxReadyEnabled s)

/-- 00 R7, 41 R126, 42 R150, R151, 44 R203, R211: an event that is not enabled changes nothing. That it may be offered at
all, and then has no effect, is the model's reading (log 4). -/
def Obligations.EventsNotEnabledHaveNoEffect : Prop :=
  ∀ s : State,
    (s.booted = false ∨ s.feState ≠ .idle → exec .poll s = .next s) ∧
    (gie s = false ∨ s.txIe = false ∨ s.txPhase ≠ .xmit ∨ s.txSize ≤ s.txIndex ∨
      s.cfg.uartDepth ≤ s.uartFifo.length → exec .txReady s = .next s) ∧
    (s.uartFifo = [] → exec .uartShiftOut s = .next s) ∧
    (s.feState = .idle ∨ s.feState = .rebooted → exec .flashStep s = .next s) ∧
    (s.feState ≠ .rebooted → exec (.reset .watchdog) s = .next s)

/-- 41 R128: POLL abandons a frame exactly when it is partial, the transmitter is idle and the gap timer has expired. -/
def Obligations.PollAbandonsPartialFrames : Prop :=
  ∀ s : State, PollEnabled s →
    (s.txPhase = .idle → s.rxActive = true → s.gapTimer = 0 →
      (s.rxCursor < 4 ∨ ∃ len : Byte, s.buf.find? 3 = some len ∧ s.rxCursor < len.toNat + 1) →
      exec .poll s =
        .next { s with pollResult := false, rxActive := false, rxCursor := 0, hostLog := s.hostLog ++ [.abandon] }) ∧
    (∀ t, exec .poll s = .next t → t.hostLog = s.hostLog ++ [.abandon] →
      s.txPhase = .idle ∧ s.rxActive = true ∧ s.gapTimer = 0 ∧
        (s.rxCursor < 4 ∨ ∃ len : Byte, s.buf.find? 3 = some len ∧ s.rxCursor < len.toNat + 1))

/-- 41 R129, 42 R152, R153: POLL step 2. PRE becomes XMIT and POST becomes IDLE when the guard has expired and, for POST,
the UART is empty; otherwise, and in XMIT, nothing happens. -/
def Obligations.PollSequencesTheTurnaround : Prop :=
  ∀ s : State, PollEnabled s →
    (s.txPhase = .pre → s.guardTimer = 0 →
      exec .poll s = .next { s with pollResult := false, txPhase := .xmit, txIe := true }) ∧
    (s.txPhase = .pre → s.guardTimer ≠ 0 → exec .poll s = .next { s with pollResult := false }) ∧
    (s.txPhase = .xmit → exec .poll s = .next { s with pollResult := false }) ∧
    (s.txPhase = .post → s.guardTimer = 0 → s.uartFifo = [] →
      exec .poll s = .next { s with
        pollResult := false, txPhase := .idle, txIe := false, txIndex := 0, txSize := 0,
        rxActive := false, rxCursor := 0, gapTimer := 0, rxIe := true }) ∧
    (s.txPhase = .post → s.guardTimer ≠ 0 ∨ s.uartFifo ≠ [] → exec .poll s = .next { s with pollResult := false })

/-- 41 R130: POLL step 3. A length below 6, a wrong END and a foreign target are discarded in this order; a bad CRC counts
and gets an empty NACK to the received source; a good frame goes to the router; an incomplete one is left alone. -/
def Obligations.PollChecksTheFrame : Prop :=
  ∀ s : State, s.cfg.Admitted → PollEnabled s → s.txPhase = .idle →
    (s.rxActive = false → exec .poll s = .next { s with pollResult := false }) ∧
    (s.rxActive = true → s.rxCursor < 4 → s.gapTimer ≠ 0 → exec .poll s = .next { s with pollResult := false }) ∧
    (∀ source target cmd len : Byte, s.rxActive = true → 4 ≤ s.rxCursor → BufHolds s 0 [source, target, cmd, len] →
      (len.toNat < 6 → s.gapTimer ≠ 0 ∨ len.toNat + 1 ≤ s.rxCursor →
        exec .poll s = .next { s with
          pollResult := false, rxActive := false, rxCursor := 0,
          hostLog := s.hostLog ++ [.discard .shortLength] }) ∧
      (6 ≤ len.toNat → s.rxCursor < len.toNat + 1 → s.gapTimer ≠ 0 →
        exec .poll s = .next { s with pollResult := false })) ∧
    (∀ frame : Bytes, FrameArrived s frame →
      (frame.getD (frame.length - 1) 0 ≠ s.cfg.endByte →
        exec .poll s = .next { s with
          pollResult := false, rxActive := false, rxCursor := 0, hostLog := s.hostLog ++ [.discard .badEnd] }) ∧
      (frame.getD (frame.length - 1) 0 = s.cfg.endByte → frame.getD 1 0 ≠ s.cfg.devAddr →
        exec .poll s = .next { s with
          pollResult := false, rxActive := false, rxCursor := 0, hostLog := s.hostLog ++ [.discard .foreign] }) ∧
      (frame.getD (frame.length - 1) 0 = s.cfg.endByte → frame.getD 1 0 = s.cfg.devAddr →
        (s.cfg.crc (frame.take (frame.length - 3)) ≠
            le16 (frame.getD (frame.length - 3) 0) (frame.getD (frame.length - 2) 0) →
          exec .poll s = .next (replied s.cfg.nackCode (frame.getD 0 0) [] { s with
            pollResult := false, rxIe := false, badCrcCount := s.badCrcCount + 1,
            hostLog := s.hostLog ++ [.crcReject] })) ∧
        (s.cfg.crc (frame.take (frame.length - 3)) =
            le16 (frame.getD (frame.length - 3) 0) (frame.getD (frame.length - 2) 0) →
          exec .poll s =
            exec (decodeCommand s.cfg s.flashErr (frame.getD 2 0) ((frame.drop 4).take (frame.length - 7)))
              { s with
                pollResult := true, rxIe := false,
                hostLog := s.hostLog ++
                  [.frame (frame.getD 0 0) (frame.getD 2 0) ((frame.drop 4).take (frame.length - 7))] })))

/-- 10 R25, 41 R127: `poll_result` is 1 exactly when this POLL handed a frame to the router, and POLL's frame: the flash,
the UART, the bus history and the boot flag do not change, and the buffer only below a reply's last byte. -/
def Obligations.PollReportsFramesAndKeepsTheRest : Prop :=
  ∀ s t : State, PollEnabled s → exec .poll s = .next t →
    (t.pollResult = true ↔ ∃ source cmd payload rest, t.hostLog = s.hostLog ++ .frame source cmd payload :: rest) ∧
    (t.cfg = s.cfg ∧ t.uartFifo = s.uartFifo ∧ t.wireOut = s.wireOut ∧ t.booted = s.booted ∧
      t.flashErr = s.flashErr ∧ t.script = s.script) ∧
    (∀ a, flashByte t a = flashByte s a) ∧
    (∀ a, t.txPhase ≠ .pre ∨ s.txPhase = .pre ∨ t.txSize - 1 ≤ a → t.buf.find? a = s.buf.find? a)

/-- 41 R124: every byte accepted while the gate is open rearms the gap timer, START included; no other rule arms it. -/
def Obligations.OnlyAcceptedBytesArmTheGapTimer : Prop :=
  (∀ (s t : State) (b : Byte), gie s = true → s.rxIe = true → s.rxActive = true ∨ b = s.cfg.startByte →
    exec (.rxByte b) s = .next t → t.gapTimer = s.cfg.gapTicks) ∧
  (∀ (s t : State) (i : Instr), exec i s = .next t → s.gapTimer < t.gapTimer →
    ∃ b, i = .rxByte b ∧ gie s = true ∧ s.rxIe = true ∧ (s.rxActive = true ∨ b = s.cfg.startByte))

/-- 10 R30: `bad_crc_count` goes up by one, modulo 2^16, for a frame addressed to this device whose CRC fails, with the
record CRC_REJECT; nothing else writes it except reset. -/
def Obligations.BadCrcCountCountsRejectedFrames : Prop :=
  (∀ (s t : State) (i : Instr), exec i s = .next t →
    t.badCrcCount = s.badCrcCount ∨
    (i = .poll ∧ t.badCrcCount = s.badCrcCount + 1 ∧ t.hostLog = s.hostLog ++ [.crcReject]) ∨
    (InstrResets i ∧ t.badCrcCount = 0)) ∧
  (∀ (s : State) (frame : Bytes), s.cfg.Admitted → FrameArrived s frame →
    frame.getD (frame.length - 1) 0 = s.cfg.endByte → frame.getD 1 0 = s.cfg.devAddr →
    s.cfg.crcIsInvalid frame (frame.length - 3) = true →
    ∃ t, exec .poll s = .next t ∧ t.badCrcCount.toNat = (s.badCrcCount.toNat + 1) % 2 ^ 16)

/-- 10 R23, R31: `flash_err` is sticky: only the startup check and the end of a self-heal set it, and only a reset clears
it. The histories only grow: `host_log` by appending, `wire_out` by the byte UART_SHIFT_OUT sends. -/
def Obligations.FlashErrIsStickyAndHistoriesGrow : Prop :=
  ∀ (s t : State) (i : Instr), exec i s = .next t →
    (s.flashErr = false → t.flashErr = true →
      i = .flashStep ∧ (s.feState = .startupCheck ∨ s.feState = .selfHeal ∧ s.feOp = .finish)) ∧
    (s.flashErr = true → t.flashErr = false → InstrResets i) ∧
    (∃ new, t.hostLog = s.hostLog ++ new) ∧
    (t.wireOut = s.wireOut ∨
      i = .uartShiftOut ∧ ∃ b rest, s.uartFifo = b :: rest ∧ t.wireOut = s.wireOut ++ [b])

/-! ### The transmitter -/

/-- 42 R150: TX_READY hands one byte to the UART; the last one ends XMIT and arms the post-transmission guard. -/
def Obligations.TxReadyHandsOverOneByte : Prop :=
  ∀ (s : State) (b : Byte), gie s = true → s.txIe = true → s.txPhase = .xmit → s.txIndex < s.txSize →
    s.uartFifo.length < s.cfg.uartDepth → s.txSize ≤ s.cfg.bufSize + 1 →
    (s.txIndex = 0 ∧ b = s.cfg.startByte ∨ 0 < s.txIndex ∧ s.buf.find? (s.txIndex - 1) = some b) →
    (s.txIndex + 1 < s.txSize →
      exec .txReady s = .next { s with uartFifo := s.uartFifo ++ [b], txIndex := s.txIndex + 1 }) ∧
    (s.txIndex + 1 = s.txSize →
      exec .txReady s = .next { s with
        uartFifo := s.uartFifo ++ [b], txIndex := s.txIndex + 1, txIe := false, txPhase := .post,
        guardTimer := s.cfg.guardPostTicks })

/-- 42 R151: UART_SHIFT_OUT moves the oldest byte to the bus; `gie` does not gate it. -/
def Obligations.ShiftOutSendsTheOldestByte : Prop :=
  ∀ (s : State) (b : Byte) (rest : Bytes), s.uartFifo = b :: rest →
    exec .uartShiftOut s = .next { s with uartFifo := rest, wireOut := s.wireOut ++ [b] }

/-- 42 R149: the transmit phase machine has the four transitions of the table, each taken where its condition holds, and
no other; and RESET and POWER_FAIL force IDLE. -/
def Obligations.TransmitPhaseTransitions : Prop :=
  (∀ s : State, de s = true ↔ s.txPhase = .xmit ∨ s.txPhase = .post) ∧
  (∀ (s t : State) (e : Event), Inv s → exec e.instr s = .next t → t.txPhase ≠ s.txPhase →
    (s.txPhase = .idle ∧ t.txPhase = .pre ∧ (e = .poll ∨ e = .flashStep) ∧ t.guardTimer = s.cfg.guardPreTicks ∧
      Written t 0 (t.txSize - 1)) ∨
    (s.txPhase = .pre ∧ t.txPhase = .xmit ∧ e = .poll ∧ s.guardTimer = 0 ∧ t.txIe = true) ∨
    (s.txPhase = .xmit ∧ t.txPhase = .post ∧ e = .txReady ∧ t.txIndex = t.txSize ∧ t.txIe = false ∧
      t.guardTimer = s.cfg.guardPostTicks) ∨
    (s.txPhase = .post ∧ t.txPhase = .idle ∧ e = .poll ∧ s.guardTimer = 0 ∧ s.uartFifo = [] ∧
      t.rxActive = false ∧ t.rxCursor = 0 ∧ t.txIndex = 0 ∧ t.txSize = 0 ∧ t.rxIe = true) ∨
    (t.txPhase = .idle ∧ EventResets e)) ∧
  (∀ (r : Reply) (t : State), finalize r = .ok t → t.txPhase = .pre ∧ t.guardTimer = r.st.cfg.guardPreTicks) ∧
  (∀ s : State, PollEnabled s → s.txPhase = .pre → s.guardTimer = 0 →
    ∃ t, exec .poll s = .next t ∧ t.txPhase = .xmit ∧ t.txIe = true ∧ de t = true) ∧
  (∀ s : State, Inv s → TxReadyEnabled s → s.txIndex + 1 = s.txSize →
    ∃ t, exec .txReady s = .next t ∧ t.txPhase = .post ∧ t.txIe = false ∧ t.guardTimer = s.cfg.guardPostTicks) ∧
  (∀ s : State, PollEnabled s → s.txPhase = .post → s.guardTimer = 0 → s.uartFifo = [] →
    ∃ t, exec .poll s = .next t ∧ t.txPhase = .idle ∧ de t = false ∧ t.rxActive = false ∧ t.rxCursor = 0 ∧
      t.txIndex = 0 ∧ t.txSize = 0 ∧ t.rxIe = true) ∧
  (∀ (s : State) (e : Event), Inv s → EventResets e → (e = .reset .watchdog → s.feState = .rebooted) →
    ∃ t, exec e.instr s = .next t ∧ t.txPhase = .idle ∧ de t = false)

/-- 42 R155: driver-enable safety. Bytes reach the bus only while `de` = 1, the block never listens while it drives, and
`de` rises only in a POLL of a block that holds a finalized reply. -/
def Obligations.DriverEnableIsSafe : Prop :=
  ∀ (s t : State) (e : Event), Inv s → exec e.instr s = .next t →
    (t.wireOut ≠ s.wireOut → de s = true) ∧
    (de s = true → s.rxIe = false) ∧
    (de s = false → de t = true → e = .poll ∧ s.txPhase = .pre ∧ s.rxIe = false)

/-- 42 R157: whatever order TX_READY, UART_SHIFT_OUT and TICK interleave in, the bytes handed over are START and then the
buffer, in order, and the bytes on the bus are those handed over, in order. -/
def Obligations.WireBytesDoNotDependOnTheSchedule : Prop :=
  ∀ (s t : State) (frame : Bytes) (es : List Event), s.txPhase = .xmit → s.txIndex = 0 → s.uartFifo = [] →
    s.txSize = frame.length + 1 → BufHolds s 0 frame →
    (∀ e ∈ es, e = .txReady ∨ e = .uartShiftOut ∨ e = .tick) → runEvents es s = .next t →
    t.txIndex ≤ t.txSize ∧
    lineBytes t = s.wireOut ++ (s.cfg.startByte :: frame).take t.txIndex ∧
    (t.txPhase = .post ↔ t.txIndex = frame.length + 1) ∧
    (t.txPhase = .post → t.uartFifo = [] → t.wireOut = s.wireOut ++ s.cfg.startByte :: frame)

/-- 42 R156: the guard minimums. At least `GUARD_PRE_TICKS` ticks lie between finalize and the driver, and at least
`GUARD_POST_TICKS` between the last byte handed over and the release, with the UART drained. -/
def Obligations.GuardTicksElapse : Prop :=
  (∀ (s t : State) (e : Event), Inv s → exec e.instr s = .next t → s.txPhase ≠ t.txPhase →
    (t.txPhase = .pre → t.guardTimer = s.cfg.guardPreTicks) ∧
    (t.txPhase = .post → t.guardTimer = s.cfg.guardPostTicks)) ∧
  (∀ (s t : State) (es : List Event), Inv s → runEvents es s = .next t → (∀ e ∈ es, ¬ EventResets e) →
    (s.txPhase = .pre → t.txPhase ≠ .pre → s.guardTimer ≤ es.count .tick) ∧
    (s.txPhase = .post → t.txPhase ≠ .post →
      s.guardTimer ≤ es.count .tick ∧ ∃ more, t.wireOut = s.wireOut ++ s.uartFifo ++ more))

/-! ### The flash -/

/-- 20 R53, R55 to R58, R61: the flash primitives, byte by byte: erase, word programming under either `FLASH_PROGRAM`, the
alignment and range faults, and that both are idempotent. -/
def Obligations.FlashPrimitivesActOnTheirBytes : Prop :=
  (∀ (s : State) (a : Nat), InFlash s (a - a % s.cfg.segSize) s.cfg.segSize →
    ∃ t, flashErase a s = .ok t ∧ t = { s with flash := t.flash } ∧
      (∀ x, flashByte t x =
        if a - a % s.cfg.segSize ≤ x ∧ x < a - a % s.cfg.segSize + s.cfg.segSize then s.cfg.erasedByte
        else flashByte s x) ∧
      ∃ u, flashErase a t = .ok u ∧ ∀ x, flashByte u x = flashByte t x) ∧
  (∀ (s : State) (a : Nat) (w : Word16), a % 2 = 0 → InFlash s a 2 →
    ∃ t, flashWriteWord a w s = .ok t ∧ t = { s with flash := t.flash } ∧
      (s.cfg.flashProgram = .and →
        flashByte t a = flashByte s a &&& w.extractLsb' 0 8 ∧
        flashByte t (a + 1) = flashByte s (a + 1) &&& w.extractLsb' 8 8) ∧
      (s.cfg.flashProgram = .overwrite ∨
          s.cfg.erasedByte = 0xFF ∧ flashByte s a = s.cfg.erasedByte ∧ flashByte s (a + 1) = s.cfg.erasedByte →
        flashWord t a = w) ∧
      (∀ x, x ≠ a → x ≠ a + 1 → flashByte t x = flashByte s x) ∧
      ∃ u, flashWriteWord a w t = .ok u ∧ ∀ x, flashByte u x = flashByte t x) ∧
  (∀ (s : State) (a : Nat) (w : Word16), a % 2 = 1 → flashWriteWord a w s = .error .misalignedWordWrite) ∧
  (∀ (s : State) (a n : Nat), s.cfg.flashBase ≤ a → a + n ≤ s.cfg.flashEnd →
    ∃ bytes, memRead s a n = .ok bytes ∧ bytes.length = n ∧ ∀ k < n, bytes.getD k 0 = flashByte s (a + k)) ∧
  (∀ (s : State) (a n : Nat), ¬ (s.cfg.flashBase ≤ a ∧ a + n ≤ s.cfg.flashEnd) →
    memRead s a n = .error .flashRangeOutside)

/-- 44 R206: the startup check. Both verdicts are recorded; then the reflash, the degraded boot, the self-heal or the
boot. -/
def Obligations.StartupCheckSelectsABank : Prop :=
  ∀ s : State, s.cfg.Admitted → s.feState = .startupCheck →
    (ImageBad s s.cfg.destBase → ¬ ImageBad s s.cfg.originBase →
      exec .flashStep s = .next { s with
        hostLog := s.hostLog ++ [.check true false], feState := .reflashing, feOp := .erase, feSeg := 0, feOff := 0 }) ∧
    (ImageBad s s.cfg.destBase → ImageBad s s.cfg.originBase →
      exec .flashStep s = .next { s with
        hostLog := s.hostLog ++ [.check true true, .booted true], flashErr := true, feState := .idle, booted := true,
        rxIe := true }) ∧
    (¬ ImageBad s s.cfg.destBase → ImageBad s s.cfg.originBase →
      exec .flashStep s = .next { s with
        hostLog := s.hostLog ++ [.check false true], feState := .selfHeal, feOp := .erase, feSeg := 0, feOff := 0 }) ∧
    (¬ ImageBad s s.cfg.destBase → ¬ ImageBad s s.cfg.originBase →
      exec .flashStep s = .next { s with
        hostLog := s.hostLog ++ [.check false false, .booted s.flashErr], feState := .idle, booted := true,
        rxIe := true })

/-- 44 R208, R209: the copy's ERASE and WRITE micro-operations, in both directions. -/
def Obligations.CopyErasesAndWritesItsSegment : Prop :=
  ∀ (s : State) (src dst : Nat), s.cfg.Admitted → Copying s src dst → s.feSeg < s.cfg.nseg →
    (s.feOp = .erase →
      ∃ t, exec .flashStep s = .next t ∧ t = { s with flash := t.flash, feOp := .write, feOff := 0 } ∧
        ∀ x, flashByte t x =
          if dst + s.feSeg * s.cfg.segSize ≤ x ∧ x < dst + (s.feSeg + 1) * s.cfg.segSize then s.cfg.erasedByte
          else flashByte s x) ∧
    (s.feOp = .write → s.feOff < s.cfg.segSize → s.feOff % 2 = 0 →
      ∃ t, exec .flashStep s = .next t ∧
        (s.feOff + 2 ≠ s.cfg.segSize → t = { s with flash := t.flash, feOff := s.feOff + 2 }) ∧
        (s.feOff + 2 = s.cfg.segSize → t = { s with
          flash := t.flash, feOff := 0, feSeg := s.feSeg + 1,
          feOp := if s.feSeg + 1 < s.cfg.nseg then .erase else .finish }) ∧
        (flashWord s (src + (s.feSeg * s.cfg.segSize + s.feOff)) = le16 s.cfg.erasedByte s.cfg.erasedByte →
          ∀ x, flashByte t x = flashByte s x) ∧
        (flashWord s (src + (s.feSeg * s.cfg.segSize + s.feOff)) ≠ le16 s.cfg.erasedByte s.cfg.erasedByte →
          ∀ x, flashByte t x =
            if x = dst + (s.feSeg * s.cfg.segSize + s.feOff) then
              programByte s.cfg (flashByte s x) (flashByte s (src + (s.feSeg * s.cfg.segSize + s.feOff)))
            else if x = dst + (s.feSeg * s.cfg.segSize + s.feOff) + 1 then
              programByte s.cfg (flashByte s x) (flashByte s (src + (s.feSeg * s.cfg.segSize + s.feOff) + 1))
            else flashByte s x))

/-- 44 R210, R211, R212: the FINISH micro-operations; and in REBOOTED only a reset changes the state, and RESET(WATCHDOG)
is enabled nowhere else (that it then has no effect is the model's reading: log 4). -/
def Obligations.CopyFinishesInRebootOrBoot : Prop :=
  (∀ s : State, s.feState = .reflashing → s.feOp = .finish →
    exec .flashStep s = .next { s with feState := .rebooted }) ∧
  (∀ s : State, s.cfg.Admitted → s.feState = .selfHeal → s.feOp = .finish →
    (ImageBad s s.cfg.originBase → exec .flashStep s = .next { s with
      flashErr := true, hostLog := s.hostLog ++ [.booted true], feState := .idle, booted := true, rxIe := true }) ∧
    (¬ ImageBad s s.cfg.originBase → exec .flashStep s = .next { s with
      hostLog := s.hostLog ++ [.booted s.flashErr], feState := .idle, booted := true, rxIe := true })) ∧
  (∀ (s : State) (e : Event), Inv s → s.feState = .rebooted →
    gie s = false ∧ (¬ EventResets e → exec e.instr s = .next s)) ∧
  (∀ s : State, ResetEnabled .watchdog s ↔ s.feState = .rebooted)

/-- 44 R215, R216: the block write's ERASE and WRITE micro-operations, with the 0xFF that pads an odd length. -/
def Obligations.BlockErasesAndWritesItsWords : Prop :=
  ∀ s : State, s.cfg.Admitted → s.feState = .blockWrite → BlockAddressOk s.cfg s.bwAddr s.bwLen →
    (s.feOp = .erase →
      ∃ t, exec .flashStep s = .next t ∧
        t = { s with flash := t.flash, feOp := if 0 < s.bwLen.toNat then .write else .verify } ∧
        ∀ x, flashByte t x =
          if s.bwAddr.toNat - s.bwAddr.toNat % s.cfg.segSize ≤ x ∧
              x < s.bwAddr.toNat - s.bwAddr.toNat % s.cfg.segSize + s.cfg.segSize then s.cfg.erasedByte
          else flashByte s x) ∧
    (s.feOp = .write → s.feOff < s.bwLen.toNat → s.feOff % 2 = 0 → ∀ lo hi : Byte,
      s.buf.find? (8 + s.feOff) = some lo →
      (s.feOff + 1 < s.bwLen.toNat ∧ s.buf.find? (8 + s.feOff + 1) = some hi ∨
        s.bwLen.toNat ≤ s.feOff + 1 ∧ hi = 0xFF) →
      ∃ t, exec .flashStep s = .next t ∧
        t = { s with
          flash := t.flash, feOff := s.feOff + 2,
          feOp := if s.bwLen.toNat ≤ s.feOff + 2 then .verify else .write } ∧
        ∀ x, flashByte t x =
          if x = s.bwAddr.toNat + s.feOff then programByte s.cfg (flashByte s x) lo
          else if x = s.bwAddr.toNat + s.feOff + 1 then programByte s.cfg (flashByte s x) hi
          else flashByte s x)

/-- 44 R217: the block write's VERIFY compares the `bw_len` data bytes and replies to `buf[0]`, the request's source. -/
def Obligations.BlockVerifyReportsTheComparison : Prop :=
  ∀ (s : State) (source : Byte) (data : Bytes), Served s source → s.feState = .blockWrite → s.feOp = .verify →
    BlockAddressOk s.cfg s.bwAddr s.bwLen → data.length = s.bwLen.toNat → BufHolds s 8 data →
    ((∀ k (h : k < data.length), flashByte s (s.bwAddr.toNat + k) = data[k]) →
      exec .flashStep s = .next (replied s.cfg.ackCode source [s.cfg.stOk] { s with feState := .idle })) ∧
    (¬ (∀ k (h : k < data.length), flashByte s (s.bwAddr.toNat + k) = data[k]) →
      exec .flashStep s = .next (replied s.cfg.ackCode source [s.cfg.stWriteFailed] { s with feState := .idle }))

/-- 44 R218: no event changes a flash byte at or above `DEST_BASE`, except the ERASE and WRITE micro-operations of a
reflash and a power failure aimed at one of them. -/
def Obligations.DestinationIsProtected : Prop :=
  ∀ (s t : State) (i : Instr) (a : Nat), Inv s → exec i s = .next t → s.cfg.destBase ≤ a →
    flashByte t a ≠ flashByte s a →
    s.feState = .reflashing ∧ (s.feOp = .erase ∨ s.feOp = .write) ∧ (i = .flashStep ∨ ∃ d, i = .powerFail d)

/-- 44 R220, 70 R284: the image copied from is untouched by every event of a copy, a power failure included, so the copy
can be started again. -/
def Obligations.CopySourceIsUntouched : Prop :=
  ∀ (s t : State) (i : Instr) (src dst : Nat), Inv s → Copying s src dst → exec i s = .next t →
    (∀ k < s.cfg.imageLen, flashByte t (src + k) = flashByte s (src + k)) ∧
    (InstrResets i → t.feState = .startupCheck ∨ t = s)

/-- 44 R221, 20 R52: `pf_target` is the table's, the next FLASH_STEP changes no flash byte outside it, and no other event
but POWER_FAIL changes a flash byte. -/
def Obligations.FlashStepsStayInTheirTarget : Prop :=
  (∀ (s : State) (src dst : Nat), Copying s src dst →
    (s.feOp = .erase → pfTarget s = (dst + s.feSeg * s.cfg.segSize, s.cfg.segSize)) ∧
    (s.feOp = .write →
      (flashWord s (src + (s.feSeg * s.cfg.segSize + s.feOff)) ≠ le16 s.cfg.erasedByte s.cfg.erasedByte →
        pfTarget s = (dst + (s.feSeg * s.cfg.segSize + s.feOff), 2)) ∧
      (flashWord s (src + (s.feSeg * s.cfg.segSize + s.feOff)) = le16 s.cfg.erasedByte s.cfg.erasedByte →
        (pfTarget s).2 = 0)) ∧
    (s.feOp = .verify ∨ s.feOp = .finish → (pfTarget s).2 = 0)) ∧
  (∀ s : State, s.feState = .blockWrite →
    (s.feOp = .erase → pfTarget s = (s.bwAddr.toNat - s.bwAddr.toNat % s.cfg.segSize, s.cfg.segSize)) ∧
    (s.feOp = .write → pfTarget s = (s.bwAddr.toNat + s.feOff, 2)) ∧
    (s.feOp = .verify ∨ s.feOp = .finish → (pfTarget s).2 = 0)) ∧
  (∀ s : State, s.feState = .idle ∨ s.feState = .startupCheck ∨ s.feState = .rebooted → (pfTarget s).2 = 0) ∧
  (∀ (s t : State) (i : Instr) (a : Nat), s.cfg.Admitted → exec i s = .next t → flashByte t a ≠ flashByte s a →
    i = .flashStep ∧ (pfTarget s).1 ≤ a ∧ a < (pfTarget s).1 + (pfTarget s).2 ∨ ∃ d, i = .powerFail d)

/-- 44 R213: what the arbiter guarantees of every block write, and that its erase and its writes stay in the segment of
`bw_addr` and in `[bw_addr, bw_addr + bw_len + 1)`, below `DEST_BASE`. -/
def Obligations.BlockWritesStayBelowDestination : Prop :=
  (∀ (s t : State) (e : Event), Inv s → exec e.instr s = .next t → t.feState = .blockWrite →
    t.bwAddr.toNat % 2 = 0 ∧ t.cfg.flashBase ≤ t.bwAddr.toNat ∧
      t.bwAddr.toNat + t.bwLen.toNat < t.cfg.destBase ∧ t.bwLen.toNat ≤ 245) ∧
  (∀ (s t : State) (a : Nat), Inv s → s.feState = .blockWrite → exec .flashStep s = .next t →
    flashByte t a ≠ flashByte s a →
    s.cfg.flashBase ≤ a ∧ a < s.cfg.destBase ∧
      (s.feOp = .erase ∧ a / s.cfg.segSize = s.bwAddr.toNat / s.cfg.segSize ∨
        s.feOp = .write ∧ s.bwAddr.toNat ≤ a ∧ a < s.bwAddr.toNat + s.bwLen.toNat + 1))

/-- 70 R279: a micro-operation of a reflash calls only the flash primitives: it makes no host call, emits no record,
composes no reply, and leaves everything but the flash and the engine's own position as it was. -/
def Obligations.ReflashMakesNoCallOut : Prop :=
  ∀ s t : State, s.feState = .reflashing → exec .flashStep s = .next t →
    t = { s with flash := t.flash, feState := t.feState, feOp := t.feOp, feSeg := t.feSeg, feOff := t.feOff } ∧
    (t.feState = .reflashing ∨ t.feState = .rebooted)

/-- 44 R200: the engine's states have the transitions of the table, each taken where its condition holds, and no other.
A frame that starts one from IDLE is given by what it decodes to (DecodeUndoesEncode, OpcodeMapTakesTheFirstRow). -/
def Obligations.EngineStateTransitions : Prop :=
  (∀ (s t : State) (e : Event), Inv s → exec e.instr s = .next t → t.feState ≠ s.feState →
    (EventResets e ∧ t.feState = .startupCheck) ∨
    (e = .flashStep ∧ s.feState = .startupCheck ∧
      (t.feState = .idle ∧ t.booted = true ∧
          (¬ ImageBad s s.cfg.destBase ∧ ¬ ImageBad s s.cfg.originBase ∨
            ImageBad s s.cfg.destBase ∧ ImageBad s s.cfg.originBase ∧ t.flashErr = true) ∨
        t.feState = .selfHeal ∧ ¬ ImageBad s s.cfg.destBase ∧ ImageBad s s.cfg.originBase ∨
        t.feState = .reflashing ∧ ImageBad s s.cfg.destBase ∧ ¬ ImageBad s s.cfg.originBase)) ∨
    (e = .flashStep ∧ s.feState = .selfHeal ∧ s.feOp = .finish ∧ s.feSeg = s.cfg.nseg ∧ t.feState = .idle ∧
      t.booted = true) ∨
    (e = .poll ∧ s.feState = .idle ∧ t.feState = .blockWrite ∧ BlockAddressOk t.cfg t.bwAddr t.bwLen) ∨
    (e = .flashStep ∧ s.feState = .blockWrite ∧ s.feOp = .verify ∧ t.feState = .idle ∧ t.txPhase = .pre) ∨
    (e = .poll ∧ s.feState = .idle ∧ t.feState = .reflashing ∧ ¬ ImageBad s s.cfg.originBase) ∨
    (e = .flashStep ∧ s.feState = .reflashing ∧ s.feOp = .finish ∧ s.feSeg = s.cfg.nseg ∧ t.feState = .rebooted)) ∧
  (∀ (s : State) (e : Event), Inv s → EventResets e → (e = .reset .watchdog → s.feState = .rebooted) →
    ∃ t, exec e.instr s = .next t ∧ t.feState = .startupCheck) ∧
  (∀ s : State, Inv s → s.feState = .startupCheck →
    ∃ t, exec .flashStep s = .next t ∧
      (¬ ImageBad s s.cfg.destBase → ¬ ImageBad s s.cfg.originBase → t.feState = .idle ∧ t.booted = true) ∧
      (ImageBad s s.cfg.destBase → ImageBad s s.cfg.originBase →
        t.feState = .idle ∧ t.booted = true ∧ t.flashErr = true) ∧
      (¬ ImageBad s s.cfg.destBase → ImageBad s s.cfg.originBase → t.feState = .selfHeal) ∧
      (ImageBad s s.cfg.destBase → ¬ ImageBad s s.cfg.originBase → t.feState = .reflashing)) ∧
  (∀ s : State, Inv s → s.feOp = .finish →
    (s.feState = .selfHeal → ∃ t, exec .flashStep s = .next t ∧ t.feState = .idle ∧ t.booted = true) ∧
    (s.feState = .reflashing → ∃ t, exec .flashStep s = .next t ∧ t.feState = .rebooted)) ∧
  (∀ s : State, Inv s → s.feState = .blockWrite → s.feOp = .verify →
    ∃ t, exec .flashStep s = .next t ∧ t.feState = .idle ∧ t.txPhase = .pre) ∧
  (∀ (s : State) (frame : Bytes), Inv s → FrameArrived s frame →
    (∀ (lo hi n : Byte) (data : Bytes), decodeFrame s.cfg s.flashErr frame = .ok (.writeFwBlock (lo :: hi :: n :: data)) →
      data.length = n.toNat → BlockAddressOk s.cfg (le16 lo hi) n →
      ∃ t, exec .poll s = .next t ∧ t.feState = .blockWrite ∧ t.bwAddr = le16 lo hi ∧ t.bwLen = n) ∧
    (∀ extra : Bytes, decodeFrame s.cfg s.flashErr frame = .ok (.writeReflash extra) → ¬ ImageBad s s.cfg.originBase →
      ∃ t, exec .poll s = .next t ∧ t.feState = .reflashing))

/-! ### Reset and power failure -/

/-- 10 R39, 70 R270, R271: what a reset leaves, and that its cause is only recorded, under its own name. `buf` is unspecified after a reset
(the model leaves it unwritten: log 7), so nothing is said of it. -/
def Obligations.ResetLeavesTheResetValues : Prop :=
  ∀ (s : State) (c : ResetSource), (c = .watchdog → s.feState = .rebooted) →
    ∃ t, exec (.reset c) s = .next t ∧
      (t.rxActive = false ∧ t.rxCursor = 0 ∧ t.rxIe = false ∧ t.gapTimer = 0 ∧ t.txPhase = .idle ∧ t.txIndex = 0 ∧
        t.txSize = 0 ∧ t.txIe = false ∧ t.guardTimer = 0 ∧ t.uartFifo = [] ∧ de t = false ∧ gie t = false ∧
        t.badCrcCount = 0 ∧ t.flashErr = false ∧ t.booted = false ∧ t.feState = .startupCheck ∧ t.feOp = .erase ∧
        t.feSeg = 0 ∧ t.feOff = 0 ∧ t.bwAddr = 0 ∧ t.bwLen = 0) ∧
      (∀ a, flashByte t a = flashByte s a) ∧ t.cfg = s.cfg ∧ t.wireOut = s.wireOut ∧
      (c = .powerOn → t.hostLog = s.hostLog ++ [.reset .powerOn]) ∧
      (c = .external → t.hostLog = s.hostLog ++ [.reset .external]) ∧
      (c = .watchdog → t.hostLog = s.hostLog ++ [.reset .watchdog]) ∧
      ∀ c' t', exec (.reset c') s = .next t' → (c' = .watchdog → s.feState = .rebooted) →
        t' = { t with hostLog := t'.hostLog }

/-- 70 R272: the drawn bytes land on the interrupted operation's target and nowhere else, and the block is reset with the
cause POWER_FAIL; with an empty target the event is a plain reset. -/
def Obligations.PowerFailCorruptsOnlyItsTarget : Prop :=
  ∀ (s : State) (d : Bytes), Inv s → d.length = (pfTarget s).2 →
    ∃ t u, exec (.powerFail d) s = .next t ∧ exec (.reset .external) s = .next u ∧
      (∀ k (h : k < d.length), flashByte t ((pfTarget s).1 + k) = d[k]) ∧
      (∀ a, a < (pfTarget s).1 ∨ (pfTarget s).1 + d.length ≤ a → flashByte t a = flashByte s a) ∧
      t = { u with flash := t.flash, hostLog := s.hostLog ++ [.reset .powerFail] } ∧
      (d = [] → t.flash = s.flash)

/-! ### Invariants and whole operations -/

/-- 10 R38, 60 R246: from every state that meets the invariant, every event and every step answers a next state that
meets it: an admitted configuration reaches no model fault. -/
def Obligations.EveryStepKeepsTheInvariant : Prop :=
  ∀ s : State, Inv s →
    (∀ e : Event, ∃ t, exec e.instr s = .next t ∧ Inv t) ∧ ∃ t, step s = .next t ∧ Inv t

/-- 70 R274, 10 R39: the invariant holds of every launch state, and of the model's reset state (its configuration `REF`
and its empty flash are the model's choice: log 1, 8). -/
def Obligations.LaunchMeetsTheInvariant : Prop :=
  (∀ (c : Config) (flash : Memory), c.Admitted → flash.wf (some c.erasedByte) →
    (∀ x ∈ flash, c.flashBase ≤ x.1 ∧ x.1 < c.flashEnd) → Inv (State.launch c flash)) ∧
  Inv State.reset

/-- 10 R38: the six clauses hold in every reachable state: after any number of steps, from the launch state of any
admitted configuration, any flash content and any script; no such run stops. -/
def Obligations.ReachableStatesMeetTheClauses : Prop :=
  ∀ (c : Config) (flash : Memory) (script : List Stimulus) (n : Nat), c.Admitted → flash.wf (some c.erasedByte) →
    (∀ x ∈ flash, c.flashBase ≤ x.1 ∧ x.1 < c.flashEnd) →
    ∃ t : State, Host.Core.run Sys2Proof.core n { State.launch c flash with script := script } = .next t ∧
      ReachableClauses t

/-- 44 R208, R209: every step keeps the copy's progress: what is behind the engine equals the source, and what is ahead of
it in the segment is erased. The premise `ProgramsErased` is the model's: it leaves out the configurations whose erased
byte cannot be programmed (log 11). -/
def Obligations.EveryStepKeepsTheCopyProgress : Prop :=
  ∀ s t : State, Inv s → CopyInv s → ProgramsErased s.cfg → step s = .next t → CopyInv t

/-- 44 R205, R212, R219: a whole copy takes `NSEG · (1 + SEG_SIZE / 2) + 1` FLASH_STEPs and leaves the target image equal
to the source, whatever the target held: a reflash ends REBOOTED, and a self-heal from a valid image ends booted with
`flash_err` as it was. The premise `ProgramsErased` is the model's (log 11). -/
def Obligations.WholeCopyMakesTheImagesEqual : Prop :=
  ∀ (s : State) (src dst : Nat), Inv s → ProgramsErased s.cfg → Copying s src dst → s.feOp = .erase → s.feSeg = 0 →
    ∃ t, flashSteps (s.cfg.nseg * (1 + s.cfg.segSize / 2) + 1) s = .next t ∧
      (∀ k < s.cfg.imageLen, flashByte t (dst + k) = flashByte s (src + k)) ∧
      (∀ k < s.cfg.imageLen, flashByte t (src + k) = flashByte s (src + k)) ∧
      (s.feState = .reflashing → t.feState = .rebooted ∧ t.hostLog = s.hostLog ∧ t.wireOut = s.wireOut) ∧
      (s.feState = .selfHeal → ¬ ImageBad s s.cfg.destBase →
        t.feState = .idle ∧ t.booted = true ∧ t.flashErr = s.flashErr ∧
          t.hostLog = s.hostLog ++ [.booted s.flashErr])

/-! ### From the wire to the command; the register view; the checksum -/

/-- 30 R85, 41 R120 to R131: a frame sent byte by byte to a listening block occupies `buf[0 .. length]`, and the POLL that
follows runs its command. -/
def Obligations.ReceivedCommandIsExecuted : Prop :=
  ∀ (s : State) (source cmd : Byte) (payload : Bytes) (i : Instr), s.cfg.Admitted → PollEnabled s → s.rxIe = true →
    s.txPhase = .idle → s.rxActive = false → payload.length ≤ 249 →
    i = decodeCommand s.cfg s.flashErr cmd payload →
    ∃ t, runEvents ((frameWire s.cfg source s.cfg.devAddr cmd payload).map Event.rxByte) s = .next t ∧
      t = { s with buf := t.buf, rxActive := true, rxCursor := payload.length + 7, gapTimer := s.cfg.gapTicks } ∧
      BufHolds t 0 (frameImage s.cfg source s.cfg.devAddr cmd payload) ∧
      (∀ a, payload.length + 7 ≤ a → t.buf.find? a = s.buf.find? a) ∧
      exec .poll t = exec i { t with
        rxIe := false, pollResult := true, hostLog := s.hostLog ++ [.frame source cmd payload] }

/-- 10 R34, R35: the register view, bit by bit; a read above index 0x0B gives 0, and a write has no effect. -/
def Obligations.RegisterViewShowsTheState : Prop :=
  ∀ s : State,
    ((readRegister s 0x00).getLsbD 0 = s.rxActive ∧ (readRegister s 0x00).getLsbD 1 = s.rxIe ∧
      (readRegister s 0x00).getLsbD 2 = s.txIe ∧
      ((readRegister s 0x00).extractLsb' 3 2).toNat =
        (match s.txPhase with | .idle => 0 | .pre => 1 | .xmit => 2 | .post => 3) ∧
      (readRegister s 0x00).getLsbD 5 = de s ∧ (readRegister s 0x00).getLsbD 6 = s.flashErr ∧
      (readRegister s 0x00).getLsbD 7 = s.booted ∧
      ((readRegister s 0x00).extractLsb' 8 3).toNat =
        (match s.feState with
          | .idle => 0 | .startupCheck => 1 | .selfHeal => 2 | .blockWrite => 3 | .reflashing => 4 | .rebooted => 5) ∧
      ((readRegister s 0x00).extractLsb' 11 2).toNat =
        (match s.feOp with | .erase => 0 | .write => 1 | .verify => 2 | .finish => 3) ∧
      (readRegister s 0x00).getLsbD 13 = gie s ∧ (readRegister s 0x00).extractLsb' 14 2 = 0) ∧
    ((s.rxCursor < 2 ^ 9 → (readRegister s 0x01).toNat = s.rxCursor) ∧
      (s.txIndex < 2 ^ 9 → (readRegister s 0x02).toNat = s.txIndex) ∧
      (s.txSize < 2 ^ 9 → (readRegister s 0x03).toNat = s.txSize) ∧
      (s.gapTimer < 2 ^ 16 → (readRegister s 0x04).toNat = s.gapTimer) ∧
      (s.guardTimer < 2 ^ 16 → (readRegister s 0x05).toNat = s.guardTimer) ∧
      readRegister s 0x06 = s.badCrcCount ∧
      (s.feSeg < 2 ^ 16 → (readRegister s 0x07).toNat = s.feSeg) ∧
      (s.feOff < 2 ^ 16 → (readRegister s 0x08).toNat = s.feOff) ∧
      readRegister s 0x09 = s.bwAddr ∧
      (readRegister s 0x0A).toNat = s.bwLen.toNat ∧
      (s.uartFifo.length < 2 ^ 8 → (readRegister s 0x0B).toNat = s.uartFifo.length)) ∧
    (∀ index > 0x0B, readRegister s index = 0) ∧ ∀ index value, writeRegister index value s = s

/-- 40 R110, R115, R116: the check value of `REF`'s function; `crc_generate` then `crc_is_invalid` reports valid for every
region and every checksum function; and changing only the two stored CRC bytes of a valid region is always detected. -/
def Obligations.GeneratedChecksumsAreValid : Prop :=
  crcCcittFalse [0x31, 0x32, 0x33, 0x34, 0x35, 0x36, 0x37, 0x38, 0x39] = 0x29B1 ∧ crcCcittFalse [] = 0xFFFF ∧
  (∀ (c : Config) (region : Bytes) (n : Nat), n + 2 ≤ region.length →
    c.crcIsInvalid (c.crcGenerate region n) n = false ∧ (c.crcGenerate region n).length = region.length ∧
      ∀ k, k ≠ n → k ≠ n + 1 → (c.crcGenerate region n).getD k 0 = region.getD k 0) ∧
  (∀ (c : Config) (region changed : Bytes) (n : Nat), changed.take n = region.take n →
    c.crcIsInvalid region n = false →
    changed.getD n 0 ≠ region.getD n 0 ∨ changed.getD (n + 1) 0 ≠ region.getD (n + 1) 0 →
    c.crcIsInvalid changed n = true)

end
end

