-- ==== Sys2Proof/Laws/Geometry.lean ====
section
/-! SUPPORT. What an admitted configuration says of sizes and of the flash geometry (00 R9, R11), and what stores keep. -/

namespace Sys2Proof.Machine

/-- A reply always fits the buffer and the payload limit. -/
theorem admitted_sizes {c : Config} (h : c.Admitted) : 256 ≤ c.bufSize ∧ c.maxPayload = 249 := ⟨h.2.1.1, h.2.1.2.1⟩

theorem admitted_geometry {c : Config} (h : c.Admitted) : c.GeometryOk := h.2.2

/-- The segments of an image fill it. -/
theorem nseg_mul {c : Config} (h : c.Admitted) : c.nseg * c.segSize = c.imageLen := by
  obtain ⟨h1, h2, h3, h4, -⟩ := admitted_geometry h
  exact Nat.div_mul_cancel (Nat.dvd_of_mod_eq_zero h4)

theorem nseg_pos {c : Config} (h : c.Admitted) : 0 < c.nseg := by
  have := nseg_mul h
  obtain ⟨h1, h2, h3, h4, -⟩ := admitted_geometry h
  rcases Nat.eq_zero_or_pos c.nseg with h0 | h0
  · rw [h0] at this; omega
  · exact h0

/-- A segment below `NSEG` lies inside the image. -/
theorem segment_in_image {c : Config} (h : c.Admitted) {k : Nat} (hk : k < c.nseg) : k * c.segSize + c.segSize ≤ c.imageLen := by
  have := nseg_mul h
  have h2 : (k + 1) * c.segSize ≤ c.nseg * c.segSize := Nat.mul_le_mul_right _ hk
  rw [this, Nat.add_mul, Nat.one_mul] at h2
  exact h2

theorem even_of_segment_multiple {c : Config} (h : c.Admitted) {a : Nat} (ha : a % c.segSize = 0) : a % 2 = 0 := by
  obtain ⟨h1, h2, -⟩ := admitted_geometry h
  have h3 : 2 ∣ c.segSize := Nat.dvd_of_mod_eq_zero h2
  have h4 : c.segSize ∣ a := Nat.dvd_of_mod_eq_zero ha
  exact Nat.mod_eq_zero_of_dvd (h3.trans h4)

theorem segmentBase_aligned {s : State} {a : Nat} (h : a % s.cfg.segSize = 0) : segmentBase s a = a := by
  simp [segmentBase, h]

theorem copyDst_range {s : State} (h : s.cfg.Admitted) : s.cfg.flashBase ≤ copyDst s ∧ copyDst s + s.cfg.imageLen ≤ s.cfg.flashEnd ∧ copyDst s % s.cfg.segSize = 0 := by
  obtain ⟨h1, h2, h3, h4, h5, h6, h7, h8, h9, h10, h11⟩ := admitted_geometry h
  unfold copyDst; split <;> refine ⟨?_, ?_, ?_⟩ <;> first | assumption | omega

theorem copySrc_range {s : State} (h : s.cfg.Admitted) : s.cfg.flashBase ≤ copySrc s ∧ copySrc s + s.cfg.imageLen ≤ s.cfg.flashEnd ∧ copySrc s % s.cfg.segSize = 0 := by
  obtain ⟨h1, h2, h3, h4, h5, h6, h7, h8, h9, h10, h11⟩ := admitted_geometry h
  unfold copySrc; split <;> refine ⟨?_, ?_, ?_⟩ <;> first | assumption | omega

/-- A buffer store keeps what has been written. -/
theorem written_storeAll {s : State} {i n a : Nat} {bs : Bytes} (h : Written s i n) :
    Written { s with buf := s.buf.storeAll none a bs } i n := by
  intro k hk
  by_cases hr : a ≤ i + k ∧ i + k < a + bs.length
  · have := Memory.find?_storeAll_none (a := a) (k := i + k - a) bs s.buf (by omega)
    rw [show a + (i + k - a) = i + k by omega] at this
    simp [this]
  · show ((s.buf.storeAll none a bs).find? (i + k)).isSome = true
    rw [Memory.find?_storeAll_other _ _ (by omega)]
    exact h k hk

/-- A composed reply is in the buffer whole (42 R148). -/
theorem written_replied (s : State) (c src : Byte) (p : Bytes) : Written (replied c src p s) 0 (p.length + 7) := by
  intro k hk
  have := Memory.find?_storeAll_none (a := 0) (k := k) (frameImage s.cfg s.cfg.devAddr src c p) s.buf (by simpa using hk)
  rw [Nat.zero_add] at this
  simp [this]

theorem types_bufStores {s : State} (h : InTypes s) {a : Nat} {bs : Bytes} (hb : a + bs.length ≤ s.cfg.bufSize) :
    InTypes { s with buf := s.buf.storeAll none a bs } := by
  obtain ⟨t1,t2,t3,t4,t5,t6,t7,t8,t9,t10,t11,t12⟩ := h
  refine ⟨Memory.storeAll_wf a bs t1, ?_, t3,t4,t5,t6,t7,t8,t9,t10,t11,t12⟩
  intro c hc
  rcases Memory.storeAll_key hc with h | h
  · show c.1 < s.cfg.bufSize
    omega
  · exact t2 c h

theorem types_flashStores {s : State} (h : InTypes s) {a : Nat} {bs : Bytes} (hb : InFlash s a bs.length) :
    InTypes { s with flash := s.flash.storeAll (some s.cfg.erasedByte) a bs } := by
  obtain ⟨t1,t2,t3,t4,t5,t6,t7,t8,t9,t10,t11,t12⟩ := h
  refine ⟨t1, t2, t3,t4,t5,t6,t7,t8,t9,t10,Memory.storeAll_wf a bs t11,?_⟩
  intro c hc
  simp only [InFlash] at hb
  rcases Memory.storeAll_key hc with h | h
  · show s.cfg.flashBase ≤ c.1 ∧ c.1 < s.cfg.flashEnd
    omega
  · exact t12 c h

end Sys2Proof.Machine
end

