-- ==== Sys2Proof/Laws/Decode.lean ====
section
/-! SUPPORT. What the decoder of frames has checked when it answers an instruction. -/

namespace Sys2Proof

theorem decodeFrame_ok {c : Config} {fe : Bool} {buf : Bytes} {i : Instr} (h : decodeFrame c fe buf = .ok i) :
    ∃ src tgt cmd len body, buf = src :: tgt :: cmd :: len :: body ∧ 6 ≤ len.toNat ∧ len.toNat - 4 < body.length ∧
      tgt = c.devAddr ∧ c.crcIsInvalid buf (len.toNat - 2) = false ∧
      i = decodeCommand c fe cmd (body.take (len.toNat - 6)) := by
  unfold decodeFrame at h
  split at h
  · rename_i src tgt cmd len body
    split at h
    · cases h
    · split at h
      · cases h
      · rename_i hb
        split at h
        · cases h
        · split at h
          · cases h
          · split at h
            · cases h
            · cases h
              refine ⟨src, tgt, cmd, len, body, rfl, by omega, ?_, by simp_all, by simp_all, rfl⟩
              by_contra hc
              rw [List.drop_eq_nil_of_le (by omega)] at hb
              cases hb
  · cases h

theorem decodePair_block {c : Config} {cmd loc : Byte} {rest block : Bytes} (h : decodePair c cmd loc rest = .writeFwBlock block) : rest = block := by
  unfold decodePair at h
  repeat' split at h
  all_goals cases h
  rfl

theorem decodeCommand_block {c : Config} {fe : Bool} {cmd : Byte} {payload block : Bytes}
    (h : decodeCommand c fe cmd payload = .writeFwBlock block) : ∃ loc, payload = loc :: block := by
  unfold decodeCommand at h
  split at h
  · cases h
  · split at h
    · cases h
    · split at h
      · cases h
      · rename_i loc rest
        exact ⟨loc, by rw [decodePair_block h]⟩

end Sys2Proof
end

