-- ==== Sys2Proof/Tests/Slice0.lean ====
section
/-! SUPPORT. The model's own tests. Expected values come from spec/95_test_vectors.md (the vector's name stands in each
docstring) or from the rule named. The witnesses at the end show, for each statement with hypotheses, states and operands
that meet them. -/

namespace Sys2Proof.Tests

open Sys2Proof.Machine

set_option Elab.async false

/-! ### Small states -/

/-- `IMG_A` of 95, a valid image of `TINY`. -/
def imgA : Bytes :=
  [0x01, 0x02, 0x03, 0x04, 0x05, 0x06, 0x07, 0x08, 0x09, 0x0A, 0x0B, 0x0C, 0x0D, 0x0E, 0xF8, 0x32]

/-- `IMG_E` of 95, the erased image of `TINY`: invalid. -/
def imgE : Bytes := List.replicate 16 0xFF

/-- A `TINY` block at launch, with the two images in its flash. -/
def launched (origin dest : Bytes) : State :=
  State.launch Config.tiny (Memory.storeAll (some 0xFF) 0x0100 (origin ++ dest) [])

/-- "Booted with A/A" of 95, with an empty history. -/
def booted : State := { launched imgA imgA with feState := .idle, booted := true, rxIe := true }

/-- A frame received, its gap timer just armed. -/
def holding (frame : Bytes) (s : State) : State :=
  { s with buf := Memory.storeAll none 0 frame [], rxActive := true, rxCursor := frame.length, gapTimer := 3 }

/-- D1 of 95, READ FW_ID, as it stands in the buffer. -/
def readFwId : Bytes := [0x01, 0x10, 0x52, 0x07, 0x00, 0xC3, 0x09, 0x03]

/-- B1 of 95, WRITE FW_BLOCK of 4 bytes at 0x0100, as it stands in the buffer. -/
def writeBlock : Bytes := [0x01, 0x10, 0x57, 0x0E, 0x04, 0x00, 0x01, 0x04, 0x11, 0x22, 0x33, 0x44, 0x48, 0x45, 0x03]

/-- F7 of 95, the reflash trigger, as it stands in the buffer. -/
def reflashTrigger : Bytes := [0x01, 0x10, 0x57, 0x07, 0x05, 0x96, 0xB2, 0x03]

/-- The router's entry: READ FW_ID in the buffer and `rx_ie` down (43 R170). -/
def asked : State := { holding readFwId booted with rxIe := false }

/-- The degraded block of 95: both images invalid, `flash_err` up. -/
def degraded : State :=
  { holding readFwId { launched imgE imgE with feState := .idle, booted := true } with flashErr := true }

/-- A reply of one byte 0x00, composed (K3 of 95). -/
def pending : State := replied 0x06 0x01 [0x00] asked

def sending : State := { pending with txPhase := .xmit, txIe := true, guardTimer := 0 }

/-- The last byte is in the UART and the post-transmission guard is armed. -/
def sent : State := { pending with txPhase := .post, txIndex := 9, guardTimer := 1, uartFifo := [0x03] }

/-- A block write of B1 under way. -/
def blockAt (op : FeOp) (off : Nat) : State :=
  { holding writeBlock booted with
    rxIe := false, feState := .blockWrite, feOp := op, feOff := off, bwAddr := 0x0100, bwLen := 4 }

/-- A reflash of an erased DESTINATION from `IMG_A` under way. -/
def reflashAt (op : FeOp) (seg off : Nat) : State :=
  { launched imgA imgE with feState := .reflashing, feOp := op, feSeg := seg, feOff := off }

/-- A self-heal of an erased ORIGIN from `IMG_A` under way. -/
def healAt (op : FeOp) (seg off : Nat) : State :=
  { launched imgE imgA with feState := .selfHeal, feOp := op, feSeg := seg, feOff := off }

/-- Every byte of the buffer is written. -/
def filled : State := { booted with buf := (List.range 256).map fun a => (a, 0) }

/-- The outcome is a next state that passes a check. -/
def nextIs (r : Result) (check : State → Bool) : Bool :=
  match r with
  | .next t => check t
  | .fault _ => false
  | .refused _ => false

theorem next_of {r : Result} {check : State → Bool} (h : nextIs r check = true) : ∃ t, r = .next t ∧ check t = true := by
  unfold nextIs at h
  split at h
  · exact ⟨_, rfl, h⟩
  · cases h
  · cases h

/-- The buffer starts with these bytes. -/
def bufStarts (bytes : Bytes) (s : State) : Bool := decide (BufHolds s 0 bytes)

/-! ### WellFormed refuses each ill-formed shape (30 R84, R95, 44 R221) -/

theorem test_wf_refuses_long_payloads :
    (Instr.degradedRead (List.replicate 250 0)).wf Config.ref = false ∧
    (Instr.degradedWriteThenRead (List.replicate 250 0)).wf Config.ref = false ∧
    (Instr.degradedRead (List.replicate 249 0)).wf Config.ref = true ∧
    (Instr.degradedWriteThenRead (List.replicate 249 0)).wf Config.ref = true := by decide +kernel

theorem test_wf_refuses_long_rests :
    (Instr.readFwId (List.replicate 249 0)).wf Config.ref = false ∧
    (Instr.readCompiler (List.replicate 249 0)).wf Config.ref = false ∧
    (Instr.readTarget (List.replicate 249 0)).wf Config.ref = false ∧
    (Instr.readControlStatus (List.replicate 249 0)).wf Config.ref = false ∧
    (Instr.writeControlStatus (List.replicate 249 0)).wf Config.ref = false ∧
    (Instr.writeThenReadControlStatus (List.replicate 249 0)).wf Config.ref = false ∧
    (Instr.writeFwBlock (List.replicate 249 0)).wf Config.ref = false ∧
    (Instr.writeReflash (List.replicate 249 0)).wf Config.ref = false ∧
    (Instr.unknownPair 0x99 0x00 (List.replicate 249 0)).wf Config.ref = false ∧
    (Instr.readFwId (List.replicate 248 0)).wf Config.ref = true := by decide +kernel

theorem test_wf_refuses_handled_pairs :
    (Instr.unknownPair 0x52 0x00 []).wf Config.ref = false ∧ (Instr.unknownPair 0x52 0x03 []).wf Config.ref = false ∧
    (Instr.unknownPair 0x57 0x03 []).wf Config.ref = false ∧ (Instr.unknownPair 0x57 0x04 []).wf Config.ref = false ∧
    (Instr.unknownPair 0x57 0x05 []).wf Config.ref = false ∧ (Instr.unknownPair 0x58 0x03 []).wf Config.ref = false ∧
    (Instr.unknownPair 0x52 0x04 []).wf Config.ref = true := by decide +kernel

theorem test_wf_refuses_power_fail_sizes :
    (Instr.powerFail [0]).wf Config.tiny = false ∧ (Instr.powerFail (List.replicate 7 0)).wf Config.tiny = false ∧
    (Instr.powerFail []).wf Config.tiny = true ∧ (Instr.powerFail [0, 0]).wf Config.tiny = true ∧
    (Instr.powerFail (List.replicate 8 0)).wf Config.tiny = true := by decide +kernel

/-- X6 of 95: a `DEST_BASE` that is no multiple of the segment size. -/
def misaligned : Config := { Config.tiny with destBase := 0x0104 }

theorem test_misaligned_is_not_admitted : ¬ misaligned.Admitted := by decide +kernel

theorem test_step_refuses_misaligned : nextIs (step { booted with cfg := misaligned }) (fun _ => true) = false := by
  decide +kernel

theorem test_ref_is_admitted : Config.ref.Admitted := by decide +kernel

theorem test_tiny_is_admitted : Config.tiny.Admitted := by decide +kernel

/-! ### Decoding: the wire bytes of 95 section 2.6, and script lines of 30 R98 -/

/-- D20, D23, D7, D1. -/
theorem test_decode_degraded_empty_fw_id :
    decodeWire Config.ref true [0x02, 0x01, 0x10, 0x52, 0x07, 0x00, 0xC3, 0x09, 0x03] = .ok (.degradedRead [0x00]) ∧
    decodeWire Config.ref true [0x02, 0x01, 0x10, 0x58, 0x08, 0x03, 0x09, 0xC9, 0xD2, 0x03] =
      .ok (.degradedWriteThenRead [0x03, 0x09]) ∧
    decodeWire Config.ref false [0x02, 0x01, 0x10, 0x52, 0x06, 0x0C, 0xB9, 0x03] = .ok (.emptyPayload 0x52) ∧
    decodeWire Config.ref false [0x02, 0x01, 0x10, 0x52, 0x07, 0x00, 0xC3, 0x09, 0x03] = .ok (.readFwId []) := by
  decide +kernel

/-- D2, D3, D4, D5. -/
theorem test_decode_strings_and_control :
    decodeWire Config.ref false [0x02, 0x01, 0x10, 0x52, 0x07, 0x01, 0xE2, 0x19, 0x03] = .ok (.readCompiler []) ∧
    decodeWire Config.ref false [0x02, 0x01, 0x10, 0x52, 0x07, 0x02, 0x81, 0x29, 0x03] = .ok (.readTarget []) ∧
    decodeWire Config.ref false [0x02, 0x01, 0x10, 0x52, 0x07, 0x03, 0xA0, 0x39, 0x03] = .ok (.readControlStatus []) ∧
    decodeWire Config.ref false [0x02, 0x01, 0x10, 0x57, 0x0A, 0x03, 0x01, 0xF4, 0x01, 0x25, 0xDC, 0x03] =
      .ok (.writeControlStatus [0x01, 0xF4, 0x01]) := by decide +kernel

/-- D6, B1, F7, D16. -/
theorem test_decode_writes_and_unknown :
    decodeWire Config.ref false [0x02, 0x01, 0x10, 0x58, 0x0A, 0x03, 0x01, 0xF4, 0x01, 0x26, 0x19, 0x03] =
      .ok (.writeThenReadControlStatus [0x01, 0xF4, 0x01]) ∧
    decodeWire Config.ref false (0x02 :: writeBlock) = .ok (.writeFwBlock [0x00, 0x01, 0x04, 0x11, 0x22, 0x33, 0x44]) ∧
    decodeWire Config.ref false [0x02, 0x01, 0x10, 0x57, 0x07, 0x05, 0x96, 0xB2, 0x03] = .ok (.writeReflash []) ∧
    decodeWire Config.ref false [0x02, 0x01, 0x10, 0x99, 0x07, 0x00, 0xC5, 0xDF, 0x03] = .ok (.unknownPair 0x99 0x00 []) := by
  decide +kernel

theorem test_decode_events :
    decode Config.ref false (.line ['R', 'X', ' ', '5', '5']) = .ok (.rxByte 0x55) ∧
    decode Config.ref false (.line ['T', 'I', 'C', 'K']) = .ok .tick ∧
    decode Config.ref false (.line ['P', 'O', 'L', 'L', ' ', ';', 'x']) = .ok .poll ∧
    decode Config.ref false (.line ['T', 'X', 'R']) = .ok .txReady ∧
    decode Config.ref false (.line ['S', 'H', 'I', 'F', 'T']) = .ok .uartShiftOut ∧
    decode Config.ref false (.line ['F', 'S', 'T', 'E', 'P']) = .ok .flashStep ∧
    decode Config.ref false (.line ['R', 'E', 'S', 'E', 'T', ' ', 'W', 'A', 'T', 'C', 'H', 'D', 'O', 'G']) =
      .ok (.reset .watchdog) ∧
    decode Config.ref false (.line ['P', 'F', 'A', 'I', 'L', ' ', '0', '0', ' ', '0', '0']) =
      .ok (.powerFail [0x00, 0x00]) := by decide +kernel

/-- V1, V2, V4, V6, V3 of 95, and a script word and count that are not of 30 R98. -/
theorem test_decode_rejects_by_name :
    decodeWire Config.ref false [0x02, 0x01, 0x10, 0x52, 0x05, 0x00, 0x00, 0x03] = .error .shortLength ∧
    decodeWire Config.ref false [0x02, 0x01, 0x10, 0x52, 0x07, 0x00, 0xC3, 0x09, 0x04] = .error .badEnd ∧
    decodeWire Config.ref false [0x02, 0x01, 0x20, 0x52, 0x07, 0x00, 0x2A, 0x25, 0x03] = .error .foreign ∧
    decodeWire Config.ref false [0x02, 0x01, 0x10, 0x52, 0x07, 0x00, 0xC2, 0x09, 0x03] = .error .badCrc ∧
    decodeWire Config.ref false [0x02, 0x01, 0x10, 0x52, 0x07] = .error .incomplete ∧
    decodeWire Config.ref false [0x55] = .error .noStart ∧
    decodeLine Config.ref ['W', 'A', 'I', 'T'] = .error .unknownWord ∧
    decodeLine Config.ref ['R', 'X', ' ', '1', '0', '0'] = .error .badNumber ∧
    decode Config.ref false (.line ['T', 'I', 'C', 'K', ' ', '2']) = .error .notOneEvent := by decide +kernel

/-! ### CRC-16: C1 to C5, C8, C9, C10 -/

theorem test_crc_check_values :
    crcCcittFalse [0x31, 0x32, 0x33, 0x34, 0x35, 0x36, 0x37, 0x38, 0x39] = 0x29B1 ∧ crcCcittFalse [] = 0xFFFF ∧
    crcCcittFalse [0x00] = 0xE1F0 ∧ crcCcittFalse [0xFF] = 0xFF00 ∧ crcCcittFalse [0x01] = 0xF1D1 := by decide +kernel

theorem test_crc_images :
    Config.ref.crcGenerate [0xAA, 0x55, 0x00, 0x00, 0x00] 3 = [0xAA, 0x55, 0x00, 0x8B, 0x47] ∧
    Config.ref.crcIsInvalid [0xAA, 0x55, 0x00, 0x8B, 0x47] 3 = false ∧
    Config.tiny.crcIsInvalid imgE 14 = true ∧ Config.tiny.crcIsInvalid imgA 14 = false := by decide +kernel

/-! ### Frame commands: the reply as it stands in the buffer (95 sections 2.5, 2.6, 2.7) -/

/-- D20. -/
theorem test_degraded_read : nextIs (exec (.degradedRead [0x00]) degraded)
    (bufStarts [0x10, 0x01, 0x15, 0x0E, 0x42, 0x61, 0x64, 0x20, 0x43, 0x52, 0x43, 0x00, 0x00, 0xF0, 0x03]) = true := by
  decide +kernel

/-- D23: the controls are applied, and no snapshot is taken. -/
theorem test_degraded_write_then_read : nextIs (exec (.degradedWriteThenRead [0x03, 0x09]) degraded)
    (fun t => bufStarts [0x10, 0x01, 0x15, 0x0E, 0x42] t && t.hostLog == [.ctrl [0x09]]) = true := by decide +kernel

/-- D7. -/
theorem test_empty_payload : nextIs (exec (.emptyPayload 0x52) asked)
    (bufStarts [0x10, 0x01, 0x15, 0x06, 0x17, 0x34, 0x03]) = true := by decide +kernel

/-- D1. -/
theorem test_read_fw_id : nextIs (exec (.readFwId []) asked)
    (bufStarts [0x10, 0x01, 0x06, 0x0D, 0x57, 0x54, 0x53, 0x2D, 0x46, 0x57, 0x00, 0x70, 0xAA, 0x03]) = true := by
  decide +kernel

/-- D2. -/
theorem test_read_compiler : nextIs (exec (.readCompiler []) asked)
    (bufStarts [0x10, 0x01, 0x06, 0x0B, 0x43, 0x43, 0x2D, 0x31, 0x00, 0x11, 0x96, 0x03]) = true := by decide +kernel

/-- D3. -/
theorem test_read_target : nextIs (exec (.readTarget []) asked)
    (bufStarts [0x10, 0x01, 0x06, 0x0A, 0x57, 0x54, 0x43, 0x00, 0x23, 0x81, 0x03]) = true := by decide +kernel

/-- D4. -/
theorem test_read_control_status :
    nextIs (exec (.readControlStatus []) { asked with snapQueue := [[0xDE, 0xAD, 0xBE, 0xEF]] })
      (bufStarts [0x10, 0x01, 0x06, 0x0A, 0xDE, 0xAD, 0xBE, 0xEF, 0xF3, 0xBB, 0x03]) = true := by decide +kernel

/-- D5. -/
theorem test_write_control_status : nextIs (exec (.writeControlStatus [0x01, 0xF4, 0x01]) asked)
    (fun t => bufStarts [0x10, 0x01, 0x06, 0x06, 0x37, 0x62, 0x03] t && t.hostLog == [.ctrl [0x01, 0xF4, 0x01]]) = true := by
  decide +kernel

/-- D6: the controls come before the snapshot. -/
theorem test_write_then_read :
    nextIs (exec (.writeThenReadControlStatus [0x01, 0xF4, 0x01]) { asked with snapQueue := [[0xDE, 0xAD, 0xBE, 0xEF]] })
      (fun t => bufStarts [0x10, 0x01, 0x06, 0x0A, 0xDE, 0xAD, 0xBE, 0xEF, 0xF3, 0xBB, 0x03] t &&
        t.hostLog == [.ctrl [0x01, 0xF4, 0x01], .snap [0xDE, 0xAD, 0xBE, 0xEF]]) = true := by decide +kernel

/-- B1. -/
theorem test_write_fw_block_starts :
    nextIs (exec (.writeFwBlock [0x00, 0x01, 0x04, 0x11, 0x22, 0x33, 0x44]) asked)
      (fun t => t.feState == .blockWrite && t.feOp == .erase && t.bwAddr == 0x0100 && t.bwLen == 4) = true := by
  decide +kernel

/-- B5: the sum is exactly `DEST_BASE`. -/
theorem test_write_fw_block_rejects :
    nextIs (exec (.writeFwBlock [0x08, 0x01, 0x08, 1, 1, 1, 1, 1, 1, 1, 1]) asked)
      (bufStarts [0x10, 0x01, 0x06, 0x07, 0x01, 0xF4, 0x58, 0x03]) = true := by decide +kernel

/-- F7. -/
theorem test_write_reflash_starts : nextIs (exec (.writeReflash []) asked)
    (fun t => t.feState == .reflashing && !gie t && t.txPhase == .idle) = true := by decide +kernel

/-- D25: the backup is bad. -/
theorem test_write_reflash_refused : nextIs (exec (.writeReflash []) degraded)
    (bufStarts [0x10, 0x01, 0x06, 0x07, 0x03, 0xB6, 0x78, 0x03]) = true := by decide +kernel

/-- D16. -/
theorem test_unknown_pair : nextIs (exec (.unknownPair 0x99 0x00 []) asked)
    (bufStarts [0x10, 0x01, 0x15, 0x06, 0x17, 0x34, 0x03]) = true := by decide +kernel

/-! ### Events -/

/-- R2, R5: START is not stored, and a second START is data. -/
theorem test_rx_byte :
    nextIs (exec (.rxByte 0x02) booted) (fun t => t.rxActive && t.rxCursor == 0 && t.gapTimer == 3) = true ∧
    nextIs (exec (.rxByte 0x02) { holding [0x01, 0x10] booted with gapTimer := 1 })
      (fun t => bufStarts [0x01, 0x10, 0x02] t && t.rxCursor == 3 && t.gapTimer == 3) = true := by decide +kernel

/-- R9: a full buffer keeps its bytes and rearms the gap timer. -/
theorem test_rx_byte_full : nextIs (exec (.rxByte 0x55) { holding readFwId booted with rxCursor := 256, gapTimer := 0 })
    (fun t => bufStarts readFwId t && t.rxCursor == 256 && t.gapTimer == 3) = true := by decide +kernel

/-- R6, R7. -/
theorem test_tick :
    nextIs (exec .tick { booted with gapTimer := 3 }) (fun t => t.gapTimer == 2 && t.guardTimer == 0) = true ∧
    nextIs (exec .tick booted) (fun t => t.gapTimer == 0 && t.guardTimer == 0) = true := by decide +kernel

/-- V10. -/
theorem test_poll_serves : nextIs (exec .poll (holding readFwId booted))
    (fun t => t.pollResult && !t.rxIe && t.txPhase == .pre && t.guardTimer == 1 && t.txSize == 15 &&
      t.hostLog == [.frame 0x01 0x52 [0x00]]) = true := by decide +kernel

/-- V8: a bad CRC when the counter is full. -/
theorem test_poll_rejects :
    nextIs (exec .poll { holding [0x01, 0x10, 0x52, 0x07, 0x00, 0xC2, 0x09, 0x03] booted with badCrcCount := 0xFFFF })
      (fun t => t.badCrcCount == 0 && !t.pollResult && t.txSize == 8 && t.hostLog == [.crcReject] &&
        bufStarts [0x10, 0x01, 0x15, 0x06, 0x17, 0x34, 0x03] t) = true := by decide +kernel

/-- T4, and the last byte of the reply (42 R150). -/
theorem test_tx_ready :
    nextIs (exec .txReady sending) (fun t => t.uartFifo == [0x02] && t.txIndex == 1) = true ∧
    nextIs (exec .txReady { sending with txIndex := 8 })
      (fun t => t.uartFifo == [0x03] && t.txPhase == .post && !t.txIe && t.guardTimer == 1) = true := by decide +kernel

/-- T6. -/
theorem test_uart_shift_out : nextIs (exec .uartShiftOut { sending with uartFifo := [0x02, 0x10] })
    (fun t => t.wireOut == [0x02] && t.uartFifo == [0x10]) = true := by decide +kernel

/-- B4's first micro-operation: 0x11 AND 0x03, 0x22 AND 0x04. -/
theorem test_flash_step_programs :
    nextIs (exec .flashStep { blockAt .write 0 with bwAddr := 0x0102, bwLen := 2 })
      (fun t => flashBytes t 0x0100 5 == [0x01, 0x02, 0x01, 0x00, 0x05] && t.feOp == .verify) = true := by decide +kernel

/-- F4's last micro-operation: the backup is still bad, so the boot is degraded (44 R212). -/
theorem test_flash_step_heals : nextIs (exec .flashStep (healAt .finish 2 0))
    (fun t => t.flashErr && t.booted && t.hostLog == [.booted true]) = true := by decide +kernel

/-- P-R1: the counters go, the history and the flash stay. -/
theorem test_reset :
    nextIs (exec (.reset .external) { holding [0x01, 0x10, 0x52, 0x07] booted with badCrcCount := 5, wireOut := [0x02] })
      (fun t => t.badCrcCount == 0 && !t.rxActive && !t.booted && t.feState == .startupCheck && t.wireOut == [0x02] &&
        t.hostLog == [.reset .external] && t.flash == booted.flash) = true := by decide +kernel

/-- P-R3, P-R5. -/
theorem test_power_fail :
    nextIs (exec (.powerFail [0x00, 0x00]) (reflashAt .write 1 4))
      (fun t => flashBytes t 0x011B 4 == [0xFF, 0x00, 0x00, 0xFF] && t.hostLog == [.reset .powerFail]) = true ∧
    nextIs (exec (.powerFail [1, 2, 3, 4, 5, 6, 7, 8]) (reflashAt .erase 1 0))
      (fun t => flashBytes t 0x0117 9 == [0xFF, 1, 2, 3, 4, 5, 6, 7, 8]) = true := by decide +kernel

/-- The model faults of 60 R246, each from the state its rule names. -/
theorem test_model_faults :
    bufByte booted 0 = .error .unwrittenBuffer ∧ bufStore 256 0 booted = .error .stateOverflow ∧
    memRead booted 0x011F 2 = .error .flashRangeOutside ∧ flashWriteWord 0x0101 0 booted = .error .misalignedWordWrite ∧
    payloadCheck 1 ⟨booted, 4 + 249⟩ = .error .replyOverflow := by decide +kernel

/-- 10 R34: STATUS of "Booted with A/A": GIE, BOOTED and RXIE. -/
theorem test_status_register : readRegister booted 0 = 0x2082 ∧ readRegister booted 0x0C = 0 := by decide +kernel

/-! ### Table keys -/

/-- The degraded rows share their keys with READ and WRITE_THEN_READ: they run in a block whose `flash_err` is 1. -/
theorem test_fetch_degraded :
    nextIs (step (State.withFetchWord { State.reset with flashErr := true } 16 0x5200))
      (bufStarts [0x10, 0x00, 0x15, 0x0E, 0x42, 0x61, 0x64]) = true ∧
    nextIs (step (State.withFetchWord { State.reset with flashErr := true } 16 0x5803))
      (fun t => t.hostLog == [.frame 0x00 0x58 [0x03], .ctrl []]) = true := by decide +kernel

theorem test_fetch_row :
    nextIs (step (State.withFetchWord State.reset 16 0x5202))
      (bufStarts [0x10, 0x00, 0x06, 0x0A, 0x57, 0x54, 0x43, 0x00]) = true := by decide +kernel

/-! ### Witnesses: the invariants -/

/-- `Inv`, in four parts that `decide` runs on. -/
abbrev TypeParts (s : State) : Prop :=
  (s.buf.wf none ∧ ∀ c ∈ s.buf, c.1 < s.cfg.bufSize) ∧ s.rxCursor ≤ s.cfg.bufSize ∧ s.gapTimer ≤ s.cfg.gapTicks ∧
  s.txIndex ≤ s.cfg.bufSize + 1 ∧ s.txSize ≤ s.cfg.bufSize + 1 ∧
  s.guardTimer ≤ max s.cfg.guardPreTicks s.cfg.guardPostTicks ∧ s.uartFifo.length ≤ s.cfg.uartDepth ∧
  s.feSeg ≤ s.cfg.nseg ∧ s.feOff ≤ max s.cfg.segSize 256 ∧
  s.flash.wf (some s.cfg.erasedByte) ∧ ∀ c ∈ s.flash, s.cfg.flashBase ≤ c.1 ∧ c.1 < s.cfg.flashEnd

abbrev ClauseParts (s : State) : Prop :=
  (s.rxIe = true → s.txPhase = .idle) ∧
  (s.booted = true → s.feState = .idle → s.txPhase = .idle → s.rxIe = true) ∧
  (s.booted = true → s.uartFifo ≠ [] → de s = true) ∧
  (s.feState = .blockWrite → s.rxIe = false ∧ s.txPhase = .idle) ∧ (s.rxActive = false → s.rxCursor = 0) ∧
  (s.booted = false →
    s.feState = .startupCheck ∨ s.feState = .selfHeal ∨ s.feState = .reflashing ∨ s.feState = .rebooted)

abbrev ReplyParts (s : State) : Prop :=
  (s.rxIe = true → s.booted = true ∧ s.feState = .idle) ∧ Written s 0 s.rxCursor ∧
  (s.txPhase ≠ .idle → (s.booted = true ∧ s.feState = .idle) ∧ s.txIndex ≤ s.txSize ∧
    (s.txPhase ≠ .post → s.txIndex < s.txSize) ∧ Written s 0 (s.txSize - 1)) ∧
  (s.txIe = true → s.txPhase = .xmit) ∧ (s.uartFifo ≠ [] → s.txPhase = .xmit ∨ s.txPhase = .post)

abbrev EngineParts (s : State) : Prop :=
  (s.booted = true → s.feState ≠ .startupCheck ∧ s.feState ≠ .selfHeal) ∧
  (s.feState = .selfHeal ∨ s.feState = .reflashing → CopyPosition s) ∧
  (s.feState = .blockWrite → s.booted = true ∧ BlockAddressOk s.cfg s.bwAddr s.bwLen ∧ s.bwLen.toNat ≤ 245 ∧
    Written s 0 (8 + s.bwLen.toNat) ∧
    ((s.feOp = .erase ∧ s.bwAddr.toNat % s.cfg.segSize = 0 ∧ s.feOff = 0) ∨
      (s.feOp = .write ∧ s.feOff < s.bwLen.toNat ∧ s.feOff % 2 = 0) ∨ s.feOp = .verify))

theorem inv_of_parts {s : State} (h0 : s.cfg.Admitted) (ht : TypeParts s) (hc : ClauseParts s) (hr : ReplyParts s)
    (he : EngineParts s) : Inv s := by
  obtain ⟨⟨t1, t2⟩, t3, t4, t5, t6, t7, t8, t9, t10, t11, t12⟩ := ht
  obtain ⟨c1, c2, c3, c4, c5, c6⟩ := hc
  obtain ⟨h1, h2, h3, h4, h5⟩ := hr
  obtain ⟨h6, h7, h8⟩ := he
  exact ⟨h0, ⟨t1, t2, t3, t4, t5, t6, t7, t8, t9, t10, t11, t12⟩, ⟨c1, c2, c3, c4, c5, c6⟩, h1, h2,
    fun h => ⟨(h3 h).1, (h3 h).2.1, (h3 h).2.2.1, (h3 h).2.2.2⟩, h4, h5, h6, h7,
    fun h => ⟨(h8 h).1, (h8 h).2.1, (h8 h).2.2.1, (h8 h).2.2.2.1, (h8 h).2.2.2.2⟩⟩

theorem inv_launched : Inv (launched imgA imgA) := inv_of_parts (by decide +kernel) (by decide +kernel) (by decide +kernel)
    (by decide +kernel) (by decide +kernel)

theorem inv_booted : Inv booted := inv_of_parts (by decide +kernel) (by decide +kernel) (by decide +kernel)
    (by decide +kernel) (by decide +kernel)

theorem inv_receiving : Inv (holding readFwId booted) := inv_of_parts (by decide +kernel) (by decide +kernel) (by decide +kernel)
    (by decide +kernel) (by decide +kernel)

theorem inv_pending : Inv pending := inv_of_parts (by decide +kernel) (by decide +kernel) (by decide +kernel)
    (by decide +kernel) (by decide +kernel)

theorem inv_sending : Inv sending := inv_of_parts (by decide +kernel) (by decide +kernel) (by decide +kernel)
    (by decide +kernel) (by decide +kernel)

theorem inv_sent : Inv sent := inv_of_parts (by decide +kernel) (by decide +kernel) (by decide +kernel)
    (by decide +kernel) (by decide +kernel)

theorem inv_block : Inv (blockAt .erase 0) ∧ Inv (blockAt .write 2) ∧ Inv (blockAt .verify 4) :=
  ⟨inv_of_parts (by decide +kernel) (by decide +kernel) (by decide +kernel)
    (by decide +kernel) (by decide +kernel), inv_of_parts (by decide +kernel) (by decide +kernel) (by decide +kernel)
    (by decide +kernel) (by decide +kernel), inv_of_parts (by decide +kernel) (by decide +kernel) (by decide +kernel)
    (by decide +kernel) (by decide +kernel)⟩

theorem inv_reflash : Inv (reflashAt .erase 0 0) ∧ Inv (reflashAt .write 1 6) ∧ Inv (reflashAt .finish 2 0) :=
  ⟨inv_of_parts (by decide +kernel) (by decide +kernel) (by decide +kernel)
    (by decide +kernel) (by decide +kernel), inv_of_parts (by decide +kernel) (by decide +kernel) (by decide +kernel)
    (by decide +kernel) (by decide +kernel), inv_of_parts (by decide +kernel) (by decide +kernel) (by decide +kernel)
    (by decide +kernel) (by decide +kernel)⟩

theorem inv_heal : Inv (healAt .erase 0 0) ∧ Inv (healAt .finish 2 0) :=
  ⟨inv_of_parts (by decide +kernel) (by decide +kernel) (by decide +kernel)
    (by decide +kernel) (by decide +kernel), inv_of_parts (by decide +kernel) (by decide +kernel) (by decide +kernel)
    (by decide +kernel) (by decide +kernel)⟩

theorem inv_rebooted : Inv (reflashFinish (reflashAt .finish 2 0)) := inv_of_parts (by decide +kernel) (by decide +kernel) (by decide +kernel)
    (by decide +kernel) (by decide +kernel)

/-- The last byte of a reply is next (42 R150). -/
theorem inv_last_byte : Inv { sending with txIndex := 8 } := inv_of_parts (by decide +kernel) (by decide +kernel)
    (by decide +kernel) (by decide +kernel) (by decide +kernel)

/-- The startup check with one image invalid, with the other, and with both. -/
theorem inv_startups : Inv (launched imgA imgE) ∧ Inv (launched imgE imgA) ∧ Inv (launched imgE imgE) :=
  ⟨inv_of_parts (by decide +kernel) (by decide +kernel) (by decide +kernel)
    (by decide +kernel) (by decide +kernel), inv_of_parts (by decide +kernel) (by decide +kernel) (by decide +kernel)
    (by decide +kernel) (by decide +kernel), inv_of_parts (by decide +kernel) (by decide +kernel) (by decide +kernel)
    (by decide +kernel) (by decide +kernel)⟩

/-- A block with a complete request in its buffer that starts the engine. -/
theorem inv_requests : Inv (holding writeBlock booted) ∧ Inv (holding reflashTrigger booted) :=
  ⟨inv_of_parts (by decide +kernel) (by decide +kernel) (by decide +kernel)
    (by decide +kernel) (by decide +kernel), inv_of_parts (by decide +kernel) (by decide +kernel) (by decide +kernel)
    (by decide +kernel) (by decide +kernel)⟩

/-- The copy's progress holds as a reflash starts. -/
theorem copy_inv_reflash : CopyInv (reflashAt .erase 0 0) := by
  constructor <;> decide +kernel

/-- The copy's progress holds in the middle of a segment: half of it copied, half of it erased. -/
theorem copy_inv_writing :
    CopyInv { launched imgA (imgA.take 12 ++ imgE.take 4) with
      feState := .reflashing, feOp := .write, feSeg := 1, feOff := 4 } := by
  constructor <;> decide +kernel

/-! ### Witnesses: states and operands that meet the hypotheses of the statements, clause by clause.
`test_ref_is_admitted` and `test_tiny_is_admitted` meet those of the statements about a configuration alone. -/

/-- "The request's source is in an admitted configuration's buffer": every statement about a frame command. -/
theorem witness_served : Served asked 0x01 := ⟨by decide +kernel, by decide +kernel⟩

theorem witness_served_degraded : Served degraded 0x01 := ⟨by decide +kernel, by decide +kernel⟩

/-- StepTakesTheNextScriptedEvent, ScriptItemsAreScheduled: each item, and DRAIN and FLASH in each of their cases. -/
theorem witness_script :
    (launched imgA imgA).cfg.Admitted ∧ (launched imgA imgA).script = [] ∧
    { booted with script := [.event .tick] }.script = .event .tick :: [] ∧
    { booted with script := [.snap [1]] }.script = .snap [1] :: [] ∧
    TxReadyEnabled { sending with script := [.drain] } ∧
    ¬ TxReadyEnabled { sent with script := [.drain] } ∧ sent.uartFifo ≠ [] ∧
    ¬ TxReadyEnabled booted ∧ booted.uartFifo = [] ∧
    booted.feState = .idle ∧ (reflashAt .erase 0 0).feState ≠ .idle ∧ (reflashAt .erase 0 0).feState ≠ .rebooted := by
  decide +kernel

/-- StepRunsTheDecodedFrame, RouterLeavesOneOfThreeStates, PollChecksTheFrame (its last clause), OpcodeMap: a whole frame
in the buffer that decodes. -/
theorem witness_frame_arrived : FrameArrived (holding readFwId booted) readFwId ∧
    decodeFrame (holding readFwId booted).cfg false readFwId = .ok (.readFwId []) := by decide +kernel

theorem witness_frame_served : FrameArrived asked readFwId ∧ asked.rxIe = false ∧ asked.cfg.Admitted ∧
    decodeFrame asked.cfg asked.flashErr readFwId = .ok (.readFwId []) := by decide +kernel

/-- RouterLeavesOneOfThreeStates: a frame that starts a block write. -/
theorem witness_frame_block : FrameArrived { holding writeBlock booted with rxIe := false } writeBlock ∧
    decodeFrame Config.tiny false writeBlock = .ok (.writeFwBlock [0x00, 0x01, 0x04, 0x11, 0x22, 0x33, 0x44]) := by
  decide +kernel

/-- DecodeUndoesEncode, DecodedFramesAreTheirEncoding. -/
theorem witness_encode : (Instr.degradedRead []).wf Config.tiny = true ∧
    (Instr.writeFwBlock (List.replicate 248 0xFF)).wf Config.tiny = true ∧
    (Instr.powerFail [0x00, 0xA5]).wf Config.tiny = true ∧
    decodeFrame Config.tiny true readFwId = .ok (.degradedRead [0x00]) := by decide +kernel

/-- OpcodeMapTakesTheFirstRow, EmptyAndUnknownCommandsGetANack: row 1 does not apply to a WRITE, nor without the flag, and
0x5704 is handled while 0x5204 is not. -/
theorem witness_opcode_rows :
    ¬ (true = true ∧ (Config.tiny.cmdWrite = Config.tiny.cmdRead ∨ Config.tiny.cmdWrite = Config.tiny.cmdWriteThenRead)) ∧
    ¬ (false = true ∧ (Config.tiny.cmdRead = Config.tiny.cmdRead ∨ Config.tiny.cmdRead = Config.tiny.cmdWriteThenRead)) ∧
    Config.tiny.pairHandled 0x52 0x04 = false ∧ Config.tiny.pairHandled 0x57 0x04 = true := by decide +kernel

/-- DegradedReadsGetBadCrc: a payload without the location, and the empty one. -/
theorem witness_degraded_payload :
    ([0x00] : Bytes).head? ≠ some degraded.cfg.locControlStatus ∧ ([] : Bytes).head? ≠ some degraded.cfg.locControlStatus := by
  decide +kernel

/-- ReadControlStatusReturnsASnapshot, WriteThenReadAppliesThenSnapshots: a queued answer of the right size. -/
theorem witness_snapshot : ([0xDE, 0xAD, 0xBE, 0xEF] : Bytes).length = asked.cfg.statusSize := by decide +kernel

/-- FirmwareBlockIsArbitrated: B10, B9; B7, B8, B5; B6 and B3 at the edge. -/
theorem witness_block_clauses :
    (([0x00, 0x40] : Bytes).length + 1 < 4) ∧
    (([0x00, 0x01, 0x03, 0x01, 0x02] : Bytes).length + 1 ≠ 4 + (([0x00, 0x01, 0x03, 0x01, 0x02] : Bytes).getD 2 0).toNat) ∧
    (le16 0x01 0x01).toNat % 2 ≠ 0 ∧ (le16 0xFE 0x00).toNat < asked.cfg.flashBase ∧
    asked.cfg.destBase ≤ (le16 0x08 0x01).toNat + (0x08 : Byte).toNat ∧
    ((le16 0x08 0x01).toNat % 2 = 0 ∧ asked.cfg.flashBase ≤ (le16 0x08 0x01).toNat ∧
      (le16 0x08 0x01).toNat + (0x07 : Byte).toNat < asked.cfg.destBase) := by decide +kernel

/-- ReflashTriggerChecksTheBackup, StartupCheckSelectsABank, CopyFinishesInRebootOrBoot: each verdict on each image. -/
theorem witness_images :
    ImageBad degraded degraded.cfg.originBase ∧ ImageBad degraded degraded.cfg.destBase ∧
    ¬ ImageBad asked asked.cfg.originBase ∧ ¬ ImageBad asked asked.cfg.destBase ∧
    ImageBad (launched imgA imgE) 0x0110 ∧ ¬ ImageBad (launched imgA imgE) 0x0100 ∧
    ¬ ImageBad (launched imgE imgA) 0x0110 ∧ ImageBad (launched imgE imgA) 0x0100 := by decide +kernel

/-- FrameCommandsLeaveTheRestUnchanged: frame commands that answer a next state, one per shape. -/
theorem witness_frame_commands :
    (Instr.frame asked.cfg (.readFwId [])).isSome = true ∧
    nextIs (exec (.readFwId []) asked) (fun t => t.txPhase == .pre) = true ∧
    nextIs (exec (.writeFwBlock [0x00, 0x01, 0x00]) asked) (fun t => t.feState == .blockWrite) = true ∧
    nextIs (exec (.writeReflash []) asked) (fun t => t.feState == .reflashing) = true ∧
    nextIs (exec (.readControlStatus []) { asked with snapQueue := [[1, 2, 3, 4]] }) (fun t => t.snapQueue == []) = true := by
  decide +kernel

/-- ComposedReplyIsAFrame: the longest payload. -/
theorem witness_longest_reply : (List.replicate 249 (0 : Byte)).length ≤ 249 := by decide +kernel

/-- FinalizeCompletesTheReply: the empty reply and the longest one. -/
theorem witness_finalize :
    (4 ≤ 4 ∧ Written asked 0 3 ∧ Written asked 4 (4 - 4)) ∧
    (253 ≤ 4 + filled.cfg.maxPayload ∧ Written filled 0 3 ∧ Written filled 4 (253 - 4)) := by decide +kernel

/-- AppendsWriteTheirBytes: K5, one byte past the limit, and the last byte that fits. -/
theorem witness_append : 253 + ([0] : Bytes).length > 4 + booted.cfg.maxPayload ∧
    252 + ([0] : Bytes).length ≤ 4 + booted.cfg.maxPayload ∧ 252 + ([0] : Bytes).length ≤ booted.cfg.bufSize := by
  decide +kernel

/-- ReceivedBytesAreStoredOrLost: the gate shut by each half; hunting; receiving with one place left and with none. -/
theorem witness_received_bytes :
    gie (launched imgA imgA) = false ∧ asked.rxIe = false ∧
    (gie booted = true ∧ booted.rxIe = true ∧ booted.rxActive = false) ∧ (0x55 : Byte) ≠ booted.cfg.startByte ∧
    ((holding [] booted).rxActive = true ∧ 255 < booted.cfg.bufSize ∧ booted.cfg.bufSize ≤ 256) := by decide +kernel

/-- TickCountsBothTimersDown, InterruptsAreMaskedWhileGieIsClear, EventsNotEnabledHaveNoEffect. -/
theorem witness_gie : gie booted = true ∧ booted.gapTimer = 0 ∧ 0 < sent.guardTimer ∧ gie sent = true ∧
    gie (launched imgA imgA) = false ∧ (launched imgA imgA).booted = false ∧ (blockAt .erase 0).feState ≠ .idle ∧
    booted.txIe = false ∧ sent.txPhase ≠ .xmit ∧ booted.txSize ≤ booted.txIndex ∧ booted.uartFifo = [] ∧
    booted.cfg.uartDepth ≤ ([0x02, 0x10] : Bytes).length ∧ booted.feState = .idle := by decide +kernel

/-- PollAbandonsPartialFrames: a header with three bytes, and a frame that lacks its last byte. -/
theorem witness_abandon :
    PollEnabled { holding [1, 2, 3] booted with gapTimer := 0 } ∧
    (holding [1, 2, 3] booted).rxCursor < 4 ∧
    (holding (readFwId.take 7) booted).buf.find? 3 = some 0x07 ∧
    (holding (readFwId.take 7) booted).rxCursor < (0x07 : Byte).toNat + 1 ∧
    nextIs (exec .poll { holding [1, 2, 3] booted with gapTimer := 0 }) (fun t => t.hostLog == [.abandon]) = true := by
  decide +kernel

/-- PollSequencesTheTurnaround: each phase, with its guard running and expired, and the UART full and empty. -/
theorem witness_turnaround :
    PollEnabled pending ∧ pending.txPhase = .pre ∧ pending.guardTimer ≠ 0 ∧ sending.txPhase = .xmit ∧ PollEnabled sending ∧
    PollEnabled sent ∧ sent.txPhase = .post ∧ sent.guardTimer ≠ 0 ∧ sent.uartFifo ≠ [] ∧
    { sent with guardTimer := 0, uartFifo := [] }.guardTimer = 0 := by decide +kernel

/-- PollChecksTheFrame: hunting, an incomplete header, a short length, an incomplete frame. -/
theorem witness_poll_clauses :
    PollEnabled booted ∧ booted.txPhase = .idle ∧ booted.rxActive = false ∧
    ((holding [1, 2, 3] booted).rxCursor < 4 ∧ (holding [1, 2, 3] booted).gapTimer ≠ 0) ∧
    (BufHolds (holding [1, 0x10, 0x52, 5] booted) 0 [1, 0x10, 0x52, 5] ∧ (5 : Byte).toNat < 6) ∧
    (BufHolds (holding (readFwId.take 7) booted) 0 [1, 0x10, 0x52, 7] ∧ 6 ≤ (7 : Byte).toNat ∧
      (holding (readFwId.take 7) booted).rxCursor < (7 : Byte).toNat + 1) := by decide +kernel

/-- PollChecksTheFrame on whole frames, BadCrcCountCountsRejectedFrames: V2, V4, V6. -/
theorem witness_poll_frames :
    FrameArrived (holding [0x01, 0x10, 0x52, 0x07, 0x00, 0xC3, 0x09, 0x04] booted)
      [0x01, 0x10, 0x52, 0x07, 0x00, 0xC3, 0x09, 0x04] ∧
    FrameArrived (holding [0x01, 0x20, 0x52, 0x07, 0x00, 0x2A, 0x25, 0x03] booted)
      [0x01, 0x20, 0x52, 0x07, 0x00, 0x2A, 0x25, 0x03] ∧
    (FrameArrived (holding [0x01, 0x10, 0x52, 0x07, 0x00, 0xC2, 0x09, 0x03] booted)
        [0x01, 0x10, 0x52, 0x07, 0x00, 0xC2, 0x09, 0x03] ∧
      booted.cfg.crcIsInvalid [0x01, 0x10, 0x52, 0x07, 0x00, 0xC2, 0x09, 0x03] 5 = true) := by decide +kernel

/-- PollReportsFramesAndKeepsTheRest, OnlyAcceptedBytesArmTheGapTimer, FlashErrIsStickyAndHistoriesGrow: events that
answer a next state, one that arms the timer, one that sets the flag and one that clears it. -/
theorem witness_events_answer :
    nextIs (exec .poll booted) (fun t => !t.pollResult) = true ∧
    nextIs (exec (.rxByte 0x02) booted) (fun t => booted.gapTimer < t.gapTimer) = true ∧
    nextIs (exec .flashStep (launched imgE imgE)) (fun t => t.flashErr) = true ∧
    nextIs (exec (.reset .external) degraded) (fun t => !t.flashErr) = true := by decide +kernel

/-- TxReadyHandsOverOneByte: the START byte, and the last byte. -/
theorem witness_tx_ready :
    TxReadyEnabled sending ∧ sending.txSize ≤ sending.cfg.bufSize + 1 ∧ sending.txIndex = 0 ∧
    TxReadyEnabled { sending with txIndex := 8 } ∧ sending.buf.find? 7 = some 0x03 ∧ 8 + 1 = sending.txSize := by
  decide +kernel

/-- ShiftOutSendsTheOldestByte, TransmitPhaseTransitions, DriverEnableIsSafe: an event of each transition. -/
theorem witness_phases :
    sent.uartFifo = 0x03 :: [] ∧
    nextIs (exec .poll (holding readFwId booted)) (fun t => t.txPhase == .pre) = true ∧
    nextIs (exec .flashStep (blockAt .verify 4)) (fun t => t.txPhase == .pre) = true ∧
    nextIs (exec .poll { pending with guardTimer := 0 }) (fun t => t.txPhase == .xmit && de t) = true ∧
    nextIs (exec .txReady { sending with txIndex := 8 }) (fun t => t.txPhase == .post) = true ∧
    nextIs (exec .poll { sent with guardTimer := 0, uartFifo := [] }) (fun t => t.txPhase == .idle && t.rxIe) = true ∧
    nextIs (exec (.reset .external) sent) (fun t => t.txPhase == .idle) = true := by decide +kernel

/-- TransmitPhaseTransitions, the transitions taken: with `inv_last_byte` the last byte; with `inv_sent` a reset and with
`inv_rebooted` the watchdog's; `witness_finalize` and `witness_turnaround` meet the other clauses. -/
theorem witness_phases_taken :
    nextIs (finish (finalize ⟨asked, 4⟩)) (fun t => t.txPhase == .pre && t.guardTimer == 1) = true ∧
    TxReadyEnabled { sending with txIndex := 8 } ∧ 8 + 1 = sending.txSize ∧
    PollEnabled { sent with guardTimer := 0, uartFifo := [] } ∧
    EventResets (.reset .external) ∧ EventResets (.powerFail []) ∧
    (reflashFinish (reflashAt .finish 2 0)).feState = .rebooted :=
  ⟨by decide +kernel, by decide +kernel, by decide +kernel, by decide +kernel, .inl ⟨_, rfl⟩, .inr ⟨_, rfl⟩,
    by decide +kernel⟩

/-- WireBytesDoNotDependOnTheSchedule: K3 with two bytes handed over and one of them sent. -/
theorem witness_wire :
    sending.txPhase = .xmit ∧ sending.txIndex = 0 ∧ sending.uartFifo = [] ∧ sending.txSize = 8 + 1 ∧
    BufHolds sending 0 [0x10, 0x01, 0x06, 0x07, 0x00, 0xD5, 0x48, 0x03] ∧
    nextIs (runEvents [.txReady, .tick, .txReady, .uartShiftOut] sending)
      (fun t => t.wireOut == [0x02] && t.uartFifo == [0x10]) = true := by decide +kernel

/-- GuardTicksElapse: a run that leaves PRE, and one that leaves POST. -/
theorem witness_guard :
    nextIs (runEvents [.poll, .tick, .poll] pending) (fun t => t.txPhase == .xmit) = true ∧
    nextIs (runEvents [.tick, .poll, .uartShiftOut, .poll] sent) (fun t => t.txPhase == .idle && t.wireOut == [0x03]) = true ∧
    (∀ e ∈ [Event.poll, .tick, .uartShiftOut], e ∉ [Event.reset .external]) := by decide +kernel

/-- FlashPrimitivesActOnTheirBytes: the first segment and the last word; an odd address; a read past the end. -/
theorem witness_primitives :
    InFlash booted (0x0107 - 0x0107 % booted.cfg.segSize) booted.cfg.segSize ∧ InFlash booted 0x011E 2 ∧
    0x011F % 2 = 1 ∧ booted.cfg.flashBase ≤ 0x0100 ∧ 0x0100 + 32 ≤ booted.cfg.flashEnd ∧
    ¬ (booted.cfg.flashBase ≤ 0x011F ∧ 0x011F + 2 ≤ booted.cfg.flashEnd) ∧ flashByte degraded 0x0100 = 0xFF := by
  decide +kernel

/-- CopyErasesAndWritesItsSegment, CopySourceIsUntouched, FlashStepsStayInTheirTarget, WholeCopyMakesTheImagesEqual: both
copies, the last word of a segment, a source word that is erased and one that is not. -/
theorem witness_copies :
    Copying (reflashAt .erase 0 0) 0x0100 0x0110 ∧ Copying (healAt .erase 0 0) 0x0110 0x0100 ∧
    (reflashAt .write 1 6).feSeg < Config.tiny.nseg ∧ 6 + 2 = Config.tiny.segSize ∧
    flashWord (reflashAt .write 1 6) (0x0100 + (1 * 8 + 6)) ≠ le16 0xFF 0xFF ∧
    flashWord { reflashAt .write 1 6 with flash := [] } (0x0100 + (1 * 8 + 6)) = le16 0xFF 0xFF ∧
    ProgramsErased Config.tiny ∧ (launched imgA imgA).feState = .startupCheck := by decide +kernel

/-- CopyFinishesInRebootOrBoot, ReflashMakesNoCallOut: the last micro-operations, and RESET(WATCHDOG) in REBOOTED. -/
theorem witness_finish :
    nextIs (exec .flashStep (reflashAt .finish 2 0)) (fun t => t.feState == .rebooted) = true ∧
    nextIs (exec .flashStep (healAt .finish 2 0)) (fun t => t.feState == .idle) = true ∧
    ImageBad (healAt .finish 2 0) 0x0100 ∧ ¬ ImageBad { healAt .finish 2 0 with flash := booted.flash } 0x0100 ∧
    ResetEnabled .watchdog (reflashFinish (reflashAt .finish 2 0)) := by decide +kernel

/-- BlockErasesAndWritesItsWords, BlockVerifyReportsTheComparison, BlockWritesStayBelowDestination: an inner word, the
padded last word of an odd length, and both verdicts. -/
theorem witness_block_steps :
    BlockAddressOk Config.tiny 0x0100 4 ∧ BlockAddressOk Config.tiny 0x0100 3 ∧
    (blockAt .write 2).buf.find? (8 + 2) = some 0x33 ∧ (blockAt .write 2).buf.find? (8 + 2 + 1) = some 0x44 ∧
    ((3 : Byte).toNat ≤ 2 + 1) ∧ Served (blockAt .verify 4) 0x01 ∧
    BufHolds (blockAt .verify 4) 8 [0x11, 0x22, 0x33, 0x44] ∧ flashByte (blockAt .verify 4) 0x0100 ≠ 0x11 ∧
    (BufHolds (holding [1, 0x10, 0x57, 9, 4, 0, 1, 2, 1, 2] booted) 8 [1, 2] ∧
      flashByte booted 0x0100 = 1 ∧ flashByte booted 0x0101 = 2) := by decide +kernel

/-- DestinationIsProtected, BlockWritesStayBelowDestination, EngineStateTransitions: micro-operations that change flash
bytes above and below `DEST_BASE`, and events that change the engine's state. -/
theorem witness_changes :
    nextIs (exec .flashStep (reflashAt .write 1 6)) (fun t => flashByte t 0x011E == 0xF8) = true ∧
    flashByte (reflashAt .write 1 6) 0x011E = 0xFF ∧
    nextIs (exec .flashStep (blockAt .erase 0)) (fun t => flashByte t 0x0100 == 0xFF) = true ∧
    nextIs (exec .poll (holding writeBlock booted)) (fun t => t.feState == .blockWrite) = true ∧
    nextIs (exec .flashStep (launched imgA imgE)) (fun t => t.feState == .reflashing) = true := by decide +kernel

/-- EngineStateTransitions, the transitions taken: with `inv_requests` the two requests that start the engine, the block
at the highest address B3 of 95 allows; with `inv_launched`, `inv_startups` and `witness_images` the four verdicts; with
`inv_heal`, `inv_reflash`, `inv_block` and `inv_rebooted` the ends. -/
theorem witness_engine_taken :
    FrameArrived (holding writeBlock booted) writeBlock ∧
    decodeFrame Config.tiny booted.flashErr writeBlock = .ok (.writeFwBlock [0x00, 0x01, 0x04, 0x11, 0x22, 0x33, 0x44]) ∧
    ([0x11, 0x22, 0x33, 0x44] : Bytes).length = (0x04 : Byte).toNat ∧
    BlockAddressOk Config.tiny (le16 0x00 0x01) 0x04 ∧ BlockAddressOk Config.tiny (le16 0x08 0x01) 0x07 ∧
    FrameArrived (holding reflashTrigger booted) reflashTrigger ∧
    decodeFrame Config.tiny booted.flashErr reflashTrigger = .ok (.writeReflash []) ∧
    ¬ ImageBad (holding reflashTrigger booted) Config.tiny.originBase ∧
    ImageBad (launched imgE imgE) 0x0110 ∧ ImageBad (launched imgE imgE) 0x0100 := by decide +kernel

/-- ResetLeavesTheResetValues, PowerFailCorruptsOnlyItsTarget: a target of each size, and the watchdog in REBOOTED. -/
theorem witness_power_fail :
    ((pfTarget (reflashAt .erase 0 0)).2 = 8 ∧ (pfTarget (reflashAt .write 1 6)).2 = 2 ∧ (pfTarget booted).2 = 0) ∧
    (ResetSource.external = .watchdog → booted.feState = .rebooted) ∧
    (reflashFinish (reflashAt .finish 2 0)).feState = .rebooted := by decide +kernel

/-- LaunchMeetsTheInvariant, ReachableStatesMeetTheClauses: a flash content of `TINY`. -/
theorem witness_flash : booted.flash.wf (some Config.tiny.erasedByte) ∧
    ∀ x ∈ booted.flash, Config.tiny.flashBase ≤ x.1 ∧ x.1 < Config.tiny.flashEnd := by decide +kernel

/-- EveryStepKeepsTheCopyProgress: with `inv_reflash` and `copy_inv_reflash`, a step from the start of a reflash. -/
theorem witness_copy_step :
    nextIs (step { reflashAt .erase 0 0 with script := [.flash] }) (fun t => t.feOp == .write) = true := by decide +kernel

/-- WholeCopyMakesTheImagesEqual: with `inv_reflash` and `inv_heal`, the valid source of a self-heal. -/
theorem witness_whole_copy : ¬ ImageBad (healAt .erase 0 0) 0x0110 ∧ (healAt .erase 0 0).feSeg = 0 := by decide +kernel

/-- ReceivedCommandIsExecuted: a listening block and the empty payload. -/
theorem witness_listening : PollEnabled booted ∧ booted.rxIe = true ∧ booted.txPhase = .idle ∧ booted.rxActive = false ∧
    decodeCommand booted.cfg booted.flashErr 0x52 [] = .emptyPayload 0x52 := by decide +kernel

/-- RegisterViewShowsTheState: values that fill their fields, and the first index above the view. -/
theorem witness_register_fields : (511 : Nat) < 2 ^ 9 ∧ (65535 : Nat) < 2 ^ 16 ∧ (255 : Nat) < 2 ^ 8 ∧ 0x0C > 0x0B := by
  decide +kernel

/-- GeneratedChecksumsAreValid: a valid region, and one changed only in its stored CRC. -/
theorem witness_regions :
    3 + 2 ≤ ([0xAA, 0x55, 0x00, 0x8B, 0x47] : Bytes).length ∧
    ([0xAA, 0x55, 0x00, 0x8B, 0x46] : Bytes).take 3 = ([0xAA, 0x55, 0x00, 0x8B, 0x47] : Bytes).take 3 ∧
    Config.ref.crcIsInvalid [0xAA, 0x55, 0x00, 0x8B, 0x47] 3 = false ∧ (0x46 : Byte) ≠ 0x47 := by decide +kernel

end Sys2Proof.Tests
end

section
/-! Proofs for 00_scope: which configurations run, which event a step takes, and what an event that is not enabled does.
The shape of `step` and of the schedule is said once here, and the obligations are assembled from it. -/

namespace Sys2Proof.Machine

/-! ### What a step does -/

theorem step_of_admitted {s : State} (h : s.cfg.Admitted) : step s = exec (nextEvent s).1.instr (nextEvent s).2 := if_pos h

theorem step_of_not_admitted {s : State} (h : ¬ s.cfg.Admitted) : step s = .refused .configRefused := if_neg h

theorem nextEvent_of_event {s : State} {e : Event} {rest : List Stimulus} (h : s.script = .event e :: rest) :
    nextEvent s = (e, { s with script := rest }) := by
  rw [nextEvent, h, takeEvent]

theorem nextEvent_of_empty {s : State} (h : s.script = []) :
    nextEvent s = (Config.freeEvent s.draws, { s with draws := s.draws + 1 }) := by
  rw [nextEvent, h, takeEvent, ← h]

/-! ### Only `step` refuses a configuration -/

theorem finish_ne_refused (x : Except Fault State) (r : Refusal) : finish x ≠ .refused r := by
  cases x with
  | ok s => rw [finish_ok]; nofun
  | error f => rw [finish_error]; nofun

/-- The arbiter answers as the fields of the request say (43 R179); none of its three answers is a refusal. -/
theorem execWriteFwBlock_ne_refused (block : Bytes) (s : State) (r : Refusal) : execWriteFwBlock block s ≠ .refused r := by
  unfold execWriteFwBlock
  split
  · exact finish_ne_refused _ r
  · split
    · nofun
    · exact finish_ne_refused _ r

/-- The router's one refusal, of an event row, is `notFrameCommand`. -/
theorem route_ne_configRefused (i : Instr) (s : State) : route i s ≠ .refused .configRefused := by
  cases i with
  | writeFwBlock block => exact execWriteFwBlock_ne_refused block s _
  | rxByte | tick | poll | txReady | uartShiftOut | flashStep | reset | powerFail => nofun
  | degradedRead | degradedWriteThenRead | emptyPayload | readFwId | readCompiler | readTarget | readControlStatus
  | writeControlStatus | writeThenReadControlStatus | writeReflash | unknownPair => exact finish_ne_refused _ _

theorem answerFrame_ne_configRefused (frame : Bytes) (s : State) : answerFrame frame s ≠ .refused .configRefused := by
  unfold answerFrame
  split
  case h_5 => nofun
  case h_6 => exact route_ne_configRefused _ _
  all_goals exact finish_ne_refused _ _

theorem frameCheck_ne_configRefused (s : State) : frameCheck s ≠ .refused .configRefused := by
  unfold frameCheck
  split
  · split
    · nofun
    · split
      · nofun
      · exact answerFrame_ne_configRefused _ _
  · nofun

theorem execPoll_ne_configRefused (s : State) : execPoll s ≠ .refused .configRefused := by
  unfold execPoll
  split
  · split
    · nofun
    · exact frameCheck_ne_configRefused _
  · nofun

theorem execRxByte_ne_refused (b : Byte) (s : State) (r : Refusal) : execRxByte b s ≠ .refused r := by
  unfold execRxByte
  split
  · split
    · exact finish_ne_refused _ r
    · split <;> nofun
  · nofun

theorem execTick_ne_refused (s : State) (r : Refusal) : execTick s ≠ .refused r := by
  unfold execTick
  split <;> nofun

theorem execTxReady_ne_refused (s : State) (r : Refusal) : execTxReady s ≠ .refused r := by
  unfold execTxReady
  split
  · exact finish_ne_refused _ r
  · nofun

theorem execUartShiftOut_ne_refused (s : State) (r : Refusal) : execUartShiftOut s ≠ .refused r := by
  unfold execUartShiftOut
  split <;> nofun

/-- Every pair of engine state and micro-operation answers a rule's outcome, a state or the fault `engineState`. -/
theorem execFlashStep_ne_refused (s : State) (r : Refusal) : execFlashStep s ≠ .refused r := by
  unfold execFlashStep
  split
  case h_5 | h_8 | h_9 | h_13 | h_14 | h_15 => nofun
  all_goals exact finish_ne_refused _ r

theorem execReset_ne_refused (c : ResetSource) (s : State) (r : Refusal) : execReset c s ≠ .refused r := by
  unfold execReset
  split <;> nofun

/-- No event answers `configRefused`: the configuration is asked about by `step` alone (log 17). -/
theorem exec_event_ne_configRefused (e : Event) (s : State) : exec e.instr s ≠ .refused .configRefused := by
  cases e with
  | rxByte b => exact execRxByte_ne_refused b s _
  | tick => exact execTick_ne_refused s _
  | poll => exact execPoll_ne_configRefused s
  | txReady => exact execTxReady_ne_refused s _
  | uartShiftOut => exact execUartShiftOut_ne_refused s _
  | flashStep => exact execFlashStep_ne_refused s _
  | reset c => exact execReset_ne_refused c s _
  | powerFail d => exact finish_ne_refused _ _

theorem step_eq_configRefused_iff (s : State) : step s = .refused .configRefused ↔ ¬ s.cfg.Admitted := by
  constructor
  · intro h ha
    rw [step_of_admitted ha] at h
    exact exec_event_ne_configRefused _ _ h
  · exact step_of_not_admitted

/-! ### The image regions of an admitted configuration (00 R11) -/

/-- Both image regions lie inside the flash. -/
theorem image_regions_in_flash {c : Config} (h : c.Admitted) (a : Nat)
    (ha : (c.originBase ≤ a ∧ a < c.originBase + c.imageLen) ∨ (c.destBase ≤ a ∧ a < c.flashEnd)) :
    c.flashBase ≤ a ∧ a < c.flashEnd := by
  obtain ⟨-, -, -, -, -, -, -, hbase, hfit, hend, -⟩ := admitted_geometry h
  omega

/-- The two image regions share no address. -/
theorem image_regions_disjoint {c : Config} (h : c.Admitted) :
    ¬ ∃ a, (c.originBase ≤ a ∧ a < c.originBase + c.imageLen) ∧ c.destBase ≤ a ∧ a < c.flashEnd := by
  rintro ⟨a, ⟨-, hao⟩, had, -⟩
  obtain ⟨-, -, -, -, -, -, -, -, hfit, -⟩ := admitted_geometry h
  omega

/-! ### Events that are not enabled (log 4) -/

theorem exec_poll_of_not_enabled {s : State} (h : ¬ PollEnabled s) : exec .poll s = .next s := if_neg h

theorem exec_txReady_of_not_enabled {s : State} (h : ¬ TxReadyEnabled s) : exec .txReady s = .next s := if_neg h

theorem exec_uartShiftOut_of_empty {s : State} (h : s.uartFifo = []) : exec .uartShiftOut s = .next s := by
  show execUartShiftOut s = .next s
  simp only [execUartShiftOut, h]

theorem exec_flashStep_of_not_enabled {s : State} (h : ¬ FlashStepEnabled s) : exec .flashStep s = .next s := by
  show execFlashStep s = .next s
  cases hf : s.feState with
  | idle | rebooted => simp only [execFlashStep, hf]
  | startupCheck | selfHeal | blockWrite | reflashing => exact absurd (by simp [FlashStepEnabled, hf]) h

theorem exec_reset_of_not_enabled {c : ResetSource} {s : State} (h : ¬ ResetEnabled c s) : exec (.reset c) s = .next s :=
  if_neg h

/-! ### The obligations -/

/-- Settles O1: no event answers `configRefused`, so `step` gives it exactly when the configuration is not admitted; the
statement's two clauses on the image regions follow from the geometry. -/
theorem onlyAdmittedConfigurationsRun : Obligations.OnlyAdmittedConfigurationsRun := by
  intro s
  rw [step_eq_configRefused_iff]
  refine not_congr ⟨fun h => ?_, ?_⟩
  · have hregions := image_regions_in_flash h
    have hdisjoint := image_regions_disjoint h
    obtain ⟨⟨hcmd, hloc, hst⟩, ⟨hbuf, hmax, hgap, huart, hstatus, hfw, hcomp, htarget⟩,
      hseg, heven, himg, himgseg, hflash, horigin, hdest, hbase, hfit, hend, htop⟩ := h
    refine ⟨hcmd, hloc, hst, hbuf, hmax, hgap, huart, hstatus, ?_, hseg, Nat.dvd_of_mod_eq_zero heven, himg, ?_,
      hbase, hfit, hend, htop, hregions, hdisjoint⟩
    · exact List.forall_mem_cons.2 ⟨hfw, List.forall_mem_cons.2 ⟨hcomp, List.forall_mem_singleton.2 htarget⟩⟩
    · intro n hn
      apply Nat.dvd_of_mod_eq_zero
      simp only [List.mem_cons, List.not_mem_nil, or_false] at hn
      rcases hn with rfl | rfl | rfl | rfl <;> assumption
  · rintro ⟨hcmd, hloc, hst, hbuf, hmax, hgap, huart, hstatus, hstr, hseg, heven, himg, hmul, hbase, hfit, hend, htop, -, -⟩
    have hmod : ∀ n ∈ [s.cfg.flashBase, s.cfg.originBase, s.cfg.destBase, s.cfg.imageLen], n % s.cfg.segSize = 0 :=
      fun n hn => Nat.mod_eq_zero_of_dvd (hmul n hn)
    exact ⟨⟨hcmd, hloc, hst⟩,
      ⟨hbuf, hmax, hgap, huart, hstatus, hstr _ (by simp), hstr _ (by simp), hstr _ (by simp)⟩,
      hseg, Nat.mod_eq_zero_of_dvd heven, himg, hmod _ (by simp), hmod _ (by simp), hmod _ (by simp), hmod _ (by simp),
      hbase, hfit, hend, htop⟩

/-- Settles O2, from what `nextEvent` takes from the two shapes of the script. -/
theorem stepTakesTheNextScriptedEvent : Obligations.StepTakesTheNextScriptedEvent := by
  intro s ha
  refine ⟨fun e rest h => ?_, fun h => ?_⟩
  · rw [step_of_admitted ha, nextEvent_of_event h]
  · rw [step_of_admitted ha, nextEvent_of_empty h]

/-- Settles O25: each premise contradicts the enabling condition of its event. -/
theorem eventsNotEnabledHaveNoEffect : Obligations.EventsNotEnabledHaveNoEffect := by
  intro s
  refine ⟨fun h => exec_poll_of_not_enabled ?_, fun h => exec_txReady_of_not_enabled ?_, exec_uartShiftOut_of_empty,
    fun h => exec_flashStep_of_not_enabled ?_, fun h => exec_reset_of_not_enabled fun hr => h (hr rfl)⟩
  · rintro ⟨hbooted, hidle⟩
    simp [hbooted, hidle] at h
  · rintro ⟨hgie, hie, hphase, hindex, hfifo⟩
    rcases h with h | h | h | h | h
    · simp [hgie] at h
    · simp [hie] at h
    · exact h hphase
    · omega
    · omega
  · rcases h with h | h <;> simp [FlashStepEnabled, h]

end Sys2Proof.Machine
end

section
/-! Proofs for 10_state: the invariant of 10 R38 over every event. A state that meets `Inv` is in one of three modes,
listening, working (the flash engine is busy) or sending, and each mode has one lemma that builds `Inv`. A lemma
`…_keeps` says that an operation, from a state that meets `Inv`, answers a next state that meets it. -/

namespace Sys2Proof.Machine

/-! ### The modes of a block that meets the invariant -/

/-- Nothing is being sent and no reply is pending: what `Inv` says of a block that listens or whose engine works. -/
structure Quiet (s : State) : Prop where
  admitted : s.cfg.Admitted
  types : InTypes s
  silent : s.txPhase = .idle
  tx_disabled : s.txIe = false
  fifo_empty : s.uartFifo = []
  received : Written s 0 s.rxCursor
  hunting : s.rxActive = false → s.rxCursor = 0

/-- A request in `buf` is being answered: the receiver is off, and a reply goes to `buf[0]` (43 R170). -/
structure Serving (s : State) : Prop extends Quiet s where
  booted : s.booted = true
  idle : s.feState = .idle
  deaf : s.rxIe = false
  source : (s.buf.find? 0).isSome = true

/-- No byte need have been written for an empty range. -/
theorem written_zero (s : State) (i : Nat) : Written s i 0 := fun k hk => absurd hk (Nat.not_lt_zero k)

theorem Inv.quiet {s : State} (h : Inv s) (hp : s.txPhase = .idle) : Quiet s where
  admitted := h.admitted
  types := h.types
  silent := hp
  tx_disabled := by
    by_contra hie
    simpa [hp] using h.tx_enable (by simpa using hie)
  fifo_empty := by
    by_contra hf
    simpa [hp] using h.fifo_phase hf
  received := h.received
  hunting := h.clauses.hunting_cursor

theorem Inv.deaf_of_sending {s : State} (h : Inv s) (hp : s.txPhase ≠ .idle) : s.rxIe = false := by
  by_contra hr
  exact hp (h.clauses.listens_only_when_idle (by simpa using hr))

theorem Inv.deaf_of_busy {s : State} (h : Inv s) (hb : s.feState ≠ .idle) : s.rxIe = false := by
  by_contra hr
  exact hb (h.listening (by simpa using hr)).2

theorem Inv.quiet_of_busy {s : State} (h : Inv s) (hb : s.feState ≠ .idle) : Quiet s := by
  refine h.quiet ?_
  by_contra hp
  exact hb (h.reply_pending hp).engine.2

theorem Quiet.inv_of_listening {s : State} (q : Quiet s) (hb : s.booted = true) (hi : s.feState = .idle)
    (hr : s.rxIe = true) : Inv s where
  admitted := q.admitted
  types := q.types
  clauses := by
    refine ⟨fun _ => q.silent, fun _ _ _ => hr, ?_, ?_, q.hunting, ?_⟩
    · simp [q.fifo_empty]
    · simp [hi]
    · simp [hb]
  listening := fun _ => ⟨hb, hi⟩
  received := q.received
  reply_pending := fun h => absurd q.silent h
  tx_enable := by simp [q.tx_disabled]
  fifo_phase := by simp [q.fifo_empty]
  booted_states := by simp [hi]
  copy := by simp [hi]
  block := by simp [hi]

theorem Quiet.inv_of_busy {s : State} (q : Quiet s) (hbusy : s.feState ≠ .idle) (hr : s.rxIe = false)
    (hb : s.booted = true → s.feState ≠ .startupCheck ∧ s.feState ≠ .selfHeal)
    (hcopy : s.feState = .selfHeal ∨ s.feState = .reflashing → CopyPosition s)
    (hblock : s.feState = .blockWrite → BlockPosition s) : Inv s where
  admitted := q.admitted
  types := q.types
  clauses := by
    refine ⟨?_, fun _ hi => absurd hi hbusy, ?_, fun _ => ⟨hr, q.silent⟩, q.hunting, fun hn => ?_⟩
    · simp [hr]
    · simp [q.fifo_empty]
    · cases hf : s.feState with
      | idle => exact absurd hf hbusy
      | blockWrite => simpa [hn] using (hblock hf).booted
      | startupCheck | selfHeal | reflashing | rebooted => simp
  listening := by simp [hr]
  received := q.received
  reply_pending := fun h => absurd q.silent h
  tx_enable := by simp [q.tx_disabled]
  fifo_phase := by simp [q.fifo_empty]
  booted_states := hb
  copy := hcopy
  block := hblock

theorem inv_of_sending {s : State} (ha : s.cfg.Admitted) (ht : InTypes s) (hr : s.rxIe = false)
    (hw : Written s 0 s.rxCursor) (hh : s.rxActive = false → s.rxCursor = 0) (hp : s.txPhase ≠ .idle)
    (hpend : ReplyPending s) (hie : s.txIe = true → s.txPhase = .xmit)
    (hfifo : s.uartFifo ≠ [] → s.txPhase = .xmit ∨ s.txPhase = .post) : Inv s := by
  obtain ⟨hb, hi⟩ := hpend.engine
  refine ⟨ha, ht, ⟨?_, ?_, ?_, ?_, hh, ?_⟩, ?_, hw, fun _ => hpend, hie, hfifo, ?_, ?_, ?_⟩
  · simp [hr]
  · exact fun _ _ h => absurd h hp
  · intro _ hf
    rcases hfifo hf with h | h <;> simp [de, h]
  · simp [hi]
  · simp [hb]
  · simp [hr]
  · simp [hi]
  · simp [hi]
  · simp [hi]

/-- The engine moves within its state: only its position and the flash change. -/
theorem Inv.engine_moves {s : State} (h : Inv s) (hb : s.feState ≠ .idle) {flash : Memory} {op : FeOp} {seg off : Nat}
    (ht : InTypes { s with flash := flash, feOp := op, feSeg := seg, feOff := off })
    (hcopy : s.feState = .selfHeal ∨ s.feState = .reflashing →
      CopyPosition { s with flash := flash, feOp := op, feSeg := seg, feOff := off })
    (hblock : s.feState = .blockWrite →
      BlockPosition { s with flash := flash, feOp := op, feSeg := seg, feOff := off }) :
    Inv { s with flash := flash, feOp := op, feSeg := seg, feOff := off } :=
  Quiet.inv_of_busy { h.quiet_of_busy hb with types := ht } hb (h.deaf_of_busy hb) h.booted_states hcopy hblock

/-- The invariant does not read the records, the counters or the model's own fields. -/
theorem Inv.of_bookkeeping {s : State} (h : Inv s) (poll : Bool) (script : List Stimulus) (queue : List Bytes)
    (draws : Nat) : Inv { s with pollResult := poll, script := script, snapQueue := queue, draws := draws } :=
  { h with
    types := { h.types with }
    clauses := { h.clauses with }
    reply_pending := fun hp => { h.reply_pending hp with }
    block := fun hb => { h.block hb with } }

/-! ### Types: what the writes keep -/

theorem types_flashClear {s : State} (h : InTypes s) (a n : Nat) :
    InTypes { s with flash := s.flash.clear a n } :=
  { h with
    flash_form := Memory.clear_wf a n h.flash_form
    flash_range := fun c hc => h.flash_range c (List.mem_filter.1 hc).1 }

theorem types_replied {s : State} (h : InTypes s) (ha : s.cfg.Admitted) {code source : Byte} {payload : Bytes}
    (hn : payload.length ≤ 249) : InTypes (replied code source payload s) := by
  have hsize := (admitted_sizes ha).1
  have hbuf := types_bufStores (a := 0) (bs := frameImage s.cfg s.cfg.devAddr source code payload) h
    (by rw [frameImage_length]; omega)
  exact { hbuf with
    tx_index := Nat.zero_le _
    tx_size := by show payload.length + 8 ≤ s.cfg.bufSize + 1; omega
    guard_timer := le_max_left _ _ }

/-! ### Answering a request -/

theorem canReply_of_admitted {s : State} (ha : s.cfg.Admitted) (hs : (s.buf.find? 0).isSome = true) {n : Nat}
    (hn : n ≤ 249) : CanReply s n := by
  obtain ⟨hsize, hmax⟩ := admitted_sizes ha
  exact ⟨hs, by omega, hn, by omega⟩

theorem Serving.replied {s : State} (h : Serving s) (code source : Byte) {payload : Bytes} (hn : payload.length ≤ 249) :
    Inv (replied code source payload s) := by
  refine inv_of_sending h.admitted (types_replied h.types h.admitted hn) h.deaf (written_storeAll h.received) h.hunting
    (by simp) ⟨⟨h.booted, h.idle⟩, by simp, by simp, written_replied s code source payload⟩ ?_ ?_
  · simp [h.tx_disabled]
  · simp [h.fifo_empty]

theorem Serving.reply {s : State} (h : Serving s) (code : Byte) {payload : Bytes} (hn : payload.length ≤ 249) :
    ∃ t, reply code payload s = .ok t ∧ Inv t := by
  obtain ⟨source, hs⟩ := Option.isSome_iff_exists.1 h.source
  exact ⟨_, reply_ok (canReply_of_admitted h.admitted h.source hn) hs, h.replied code source hn⟩

theorem Serving.replyString {s : State} (h : Serving s) (code : Byte) {str : Bytes} (hn : str.length ≤ 248) :
    ∃ t, replyString code str s = .ok t ∧ Inv t :=
  h.reply code (by simpa [terminated] using Nat.succ_le_succ hn)

/-- Records, draws and counters do not matter to a request being answered. -/
theorem Serving.recorded {s : State} (h : Serving s) (records : List Record) (queue : List Bytes) (draws : Nat)
    (count : Word16) :
    Serving { s with hostLog := records, snapQueue := queue, draws := draws, badCrcCount := count } :=
  { h with types := { h.types with } }

theorem Serving.emit {s : State} (h : Serving s) (r : Record) : Serving (emit r s) := h.recorded _ _ _ _

theorem readStatusSnapshot_length (s : State) : (readStatusSnapshot s).1.length = s.cfg.statusSize :=
  drawBytes_length _ _ _

theorem Serving.snapshotReply {s : State} (h : Serving s) : ∃ t, snapshotReply s = .ok t ∧ Inv t := by
  have hsnap : Serving (readStatusSnapshot s).2 := h.recorded _ _ _ _
  refine hsnap.reply _ ?_
  rw [readStatusSnapshot_length]
  obtain ⟨-, -, -, -, hstatus, -⟩ := h.admitted.2.1
  exact hstatus

/-- Every error that is answered on the line is answered by a reply that fits (60 R240). -/
theorem Serving.takeError {s : State} (h : Serving s) {cause : ErrorCause} (hc : 2 ≤ cause.classCode)
    (hd : cause ≠ .dualImage) : ∃ t, takeError cause s = .ok t ∧ Inv t := by
  cases cause with
  | shortLength | badEnd | foreign | truncated => exact absurd hc (by decide)
  | badFrameCrc => exact (h.recorded _ _ _ _).reply (payload := []) _ (by decide)
  | unknownPair | emptyPayload | malformedBlock => exact h.reply (payload := []) _ (by decide)
  | badAddress | writeFailed | badBackupCrc => exact h.reply (payload := [_]) _ (Nat.le_add_left _ _)
  | dualImage => exact absurd rfl hd

/-- A row whose rule ends in a good state runs to a good next state. -/
theorem finish_keeps {x : Except Fault State} (h : ∃ t, x = .ok t ∧ Inv t) : ∃ t, finish x = .next t ∧ Inv t := by
  obtain ⟨t, rfl, ht⟩ := h
  exact ⟨t, finish_ok t, ht⟩

/-- An image of an admitted configuration can be checked (44 R201). -/
theorem image_checked {s : State} (ha : s.cfg.Admitted) :
    (∃ bad, imageInvalid s s.cfg.originBase = .ok bad) ∧ ∃ bad, imageInvalid s s.cfg.destBase = .ok bad := by
  obtain ⟨-, -, himg, -, -, -, -, hbase, hfit, hend, -⟩ := admitted_geometry ha
  exact ⟨⟨_, imageInvalid_ok (by omega) ⟨hbase, by omega⟩⟩, ⟨_, imageInvalid_ok (by omega) ⟨by omega, by omega⟩⟩⟩

theorem copyPosition_enterCopy {s : State} (ha : s.cfg.Admitted) (target : FeState) :
    CopyPosition (enterCopy target s) := .inl ⟨rfl, nseg_pos ha⟩

theorem types_enterCopy {s : State} (h : InTypes s) (target : FeState) : InTypes (enterCopy target s) :=
  { h with fe_seg := Nat.zero_le _, fe_off := Nat.zero_le _ }

/-- A copy is entered with the receiver off; a booted block enters a reflash only (44 R206, R207). -/
theorem Quiet.enterCopy {s : State} (q : Quiet s) (hr : s.rxIe = false) {target : FeState}
    (ht : target = .selfHeal ∨ target = .reflashing) (hb : s.booted = true → target = .reflashing) :
    Inv (enterCopy target s) := by
  refine Quiet.inv_of_busy { q with types := types_enterCopy q.types target } ?_ hr ?_
    (fun _ => copyPosition_enterCopy q.admitted target) ?_
  · rcases ht with rfl | rfl <;> simp
  · intro h
    simp [hb h]
  · rcases ht with rfl | rfl <;> simp

theorem Serving.reflashTrigger {s : State} (h : Serving s) : ∃ t, reflashTrigger s = .ok t ∧ Inv t := by
  obtain ⟨⟨bad, hbad⟩, -⟩ := image_checked h.admitted
  rw [Machine.reflashTrigger, hbad, ok_bind]
  cases bad with
  | true => exact h.takeError (cause := .badBackupCrc) (by decide) (by decide)
  | false => exact ⟨_, rfl, h.toQuiet.enterCopy h.deaf (.inr rfl) fun _ => rfl⟩

theorem blockFields_some {block : Bytes} {addr : Word16} {len : Byte} {data : Bytes}
    (h : blockFields block = some (addr, len, data)) : block.length = len.toNat + 3 := by
  unfold blockFields at h
  split at h
  · split at h
    · cases h
      simpa
    · cases h
  · cases h

/-- The arbiter starts a block whose request stands in `buf` (44 R213, R214). -/
theorem Serving.startBlockWrite {s : State} (h : Serving s) {addr : Word16} {len : Byte}
    (haddr : BlockAddressOk s.cfg addr len) (hlen : len.toNat ≤ 245) (hreq : Written s 0 (8 + len.toNat)) :
    Inv (startBlockWrite addr len s) := by
  have q : Quiet (Machine.startBlockWrite addr len s) :=
    { h.toQuiet with types := { h.types with fe_off := Nat.zero_le _ } }
  refine q.inv_of_busy (by simp) h.deaf (by simp) (by simp) fun _ => ⟨h.booted, haddr, hlen, hreq, ?_⟩
  simp only [startBlockWrite_feOp, startBlockWrite_feOff, startBlockWrite_bwAddr, startBlockWrite_bwLen,
    startBlockWrite_cfg]
  by_cases hal : addr.toNat % s.cfg.segSize = 0
  · simp [hal]
  · by_cases hl : 0 < len.toNat <;> simp [hal, hl]

theorem Serving.writeFwBlock {s : State} (h : Serving s) {block : Bytes} (hlen : block.length ≤ 248)
    (hreq : Written s 0 (block.length + 5)) : ∃ t, execWriteFwBlock block s = .next t ∧ Inv t := by
  unfold execWriteFwBlock
  split
  · exact finish_keeps (h.takeError (by decide) (by decide))
  · rename_i addr len data hf
    have hfields := blockFields_some hf
    split
    · rename_i haddr
      exact ⟨_, rfl, h.startBlockWrite haddr (by omega) fun k hk => hreq k (by omega)⟩
    · exact finish_keeps (h.takeError (by decide) (by decide))

/-- Every frame command, served, ends in a good state (43 R170). -/
theorem Serving.route {s : State} (h : Serving s) {i : Instr} (hi : (i.frame s.cfg).isSome = true)
    (hblock : ∀ block, i = .writeFwBlock block → block.length ≤ 248 ∧ Written s 0 (block.length + 5)) :
    ∃ t, route i s = .next t ∧ Inv t := by
  obtain ⟨-, -, -, -, -, ⟨-, hfw⟩, ⟨-, hcompiler⟩, -, htarget⟩ := h.admitted.2.1
  cases i with
  | degradedRead payload => exact finish_keeps (h.replyString _ (by decide))
  | degradedWriteThenRead payload =>
    have hd : Serving (degradedControls payload s) := by
      unfold degradedControls
      split
      · split
        · exact h.emit _
        · exact h
      · exact h
    exact finish_keeps (hd.replyString _ (by decide))
  | emptyPayload cmd => exact finish_keeps (h.takeError (by decide) (by decide))
  | readFwId extra => exact finish_keeps (h.replyString _ hfw)
  | readCompiler extra => exact finish_keeps (h.replyString _ hcompiler)
  | readTarget extra => exact finish_keeps (h.replyString _ htarget)
  | readControlStatus extra => exact finish_keeps h.snapshotReply
  | writeControlStatus ctrl => exact finish_keeps ((h.emit _).reply (payload := []) _ (by decide))
  | writeThenReadControlStatus ctrl => exact finish_keeps (h.emit _).snapshotReply
  | writeFwBlock block => exact h.writeFwBlock (hblock block rfl).1 (hblock block rfl).2
  | writeReflash extra => exact finish_keeps h.reflashTrigger
  | unknownPair cmd loc rest => exact finish_keeps (h.takeError (by decide) (by decide))
  | rxByte | tick | poll | txReady | uartShiftOut | flashStep | reset | powerFail => cases hi

/-! ### POLL keeps the invariant -/

theorem frameComplete_ok {s : State} (hw : Written s 0 s.rxCursor) : ∃ complete, frameComplete s = .ok complete := by
  unfold frameComplete
  split
  · exact ⟨_, rfl⟩
  · obtain ⟨len, hlen⟩ := Option.isSome_iff_exists.1 (by simpa using hw 3 (by omega))
    exact ⟨_, by rw [bufByte_ok hlen, ok_bind, pure_eq_ok]⟩

/-- Dropping a frame leaves a listening block listening (41 R128, R130). -/
theorem Inv.dropFrame {s : State} (h : Inv s) (hp : PollEnabled s) (hq : s.txPhase = .idle) (r : Record) :
    Inv (dropFrame r s) := by
  have q : Quiet (Machine.dropFrame r s) :=
    { h.quiet hq with
      types := { h.types with rx_cursor := Nat.zero_le _ }
      received := written_zero _ _
      hunting := fun _ => rfl }
  exact q.inv_of_listening hp.1 hp.2 (h.clauses.idle_block_listens hp.1 hp.2 hq)

theorem housekeeping_keeps {s : State} (h : Inv s) (hp : PollEnabled s) :
    ∃ t, housekeeping s = .ok t ∧ Inv t ∧ PollEnabled t := by
  unfold housekeeping
  split
  · rename_i hx
    obtain ⟨complete, hc⟩ := frameComplete_ok h.received
    rw [hc, ok_bind]
    cases complete with
    | true => exact ⟨s, rfl, h, hp⟩
    | false => exact ⟨_, rfl, h.dropFrame hp hx.1 .abandon, hp⟩
  · exact ⟨s, rfl, h, hp⟩

theorem turnaround_keeps {s : State} (h : Inv s) (hp : PollEnabled s) :
    Inv (turnaround s) ∧ PollEnabled (turnaround s) := by
  unfold turnaround
  split
  · rename_i hpre
    have hne : s.txPhase ≠ .idle := by simp [hpre]
    have hpend := h.reply_pending hne
    split
    · refine ⟨inv_of_sending h.admitted { h.types with } (h.deaf_of_sending hne) h.received h.clauses.hunting_cursor
        (by simp) { hpend with unsent := fun _ => hpend.unsent (by simp [hpre]) } (by simp) (by simp), hp⟩
    · exact ⟨h, hp⟩
  · split
    · rename_i hx
      have q : Quiet (resumeReceiving s) :=
        { admitted := h.admitted
          types := { h.types with
            rx_cursor := Nat.zero_le _
            gap_timer := Nat.zero_le _
            tx_index := Nat.zero_le _
            tx_size := Nat.zero_le _ }
          silent := rfl
          tx_disabled := rfl
          fifo_empty := hx.2
          received := written_zero _ _
          hunting := by simp }
      exact ⟨q.inv_of_listening hp.1 hp.2 rfl, hp⟩
    · exact ⟨h, hp⟩
  · exact ⟨h, hp⟩
  · exact ⟨h, hp⟩

theorem decodePair_frame (c : Config) (cmd loc : Byte) (rest : Bytes) :
    ((decodePair c cmd loc rest).frame c).isSome = true := by
  unfold decodePair
  repeat' split
  all_goals rfl

/-- The opcode map gives frame commands only (30 R94). -/
theorem decodeCommand_frame (c : Config) (flashErr : Bool) (cmd : Byte) (payload : Bytes) :
    ((decodeCommand c flashErr cmd payload).frame c).isSome = true := by
  unfold decodeCommand
  split
  · rfl
  · split
    · rfl
    · split
      · rfl
      · exact decodePair_frame _ _ _ _

/-- A firmware block is five bytes shorter than the part of its frame before the CRC, which a length byte bounds
(30 R84). -/
theorem decodeFrame_block {c : Config} {flashErr : Bool} {buf block : Bytes}
    (h : decodeFrame c flashErr buf = .ok (.writeFwBlock block)) :
    block.length ≤ 248 ∧ block.length + 5 ≤ buf.length := by
  obtain ⟨src, tgt, cmd, len, body, rfl, hlen, hbody, -, -, hi⟩ := decodeFrame_ok h
  obtain ⟨loc, hpayload⟩ := decodeCommand_block hi.symm
  have hsize := congrArg List.length hpayload
  have hbyte := len.isLt
  simp only [List.length_take, List.length_cons] at hsize ⊢
  omega

theorem answerFrame_keeps {s : State} (h : Inv s) (hp : PollEnabled s) (hq : s.txPhase = .idle) {frame : Bytes}
    (hpos : 0 < frame.length) (hw : Written s 0 frame.length) : ∃ t, answerFrame frame s = .next t ∧ Inv t := by
  have hserve : Serving { s with rxIe := false } :=
    { h.quiet hq with types := { h.types with }, booted := hp.1, idle := hp.2, deaf := rfl, source := hw 0 hpos }
  unfold answerFrame
  split
  · exact ⟨_, rfl, h.dropFrame hp hq _⟩
  · exact ⟨_, rfl, h.dropFrame hp hq _⟩
  · exact ⟨_, rfl, h.dropFrame hp hq _⟩
  · exact finish_keeps (hserve.takeError (by decide) (by decide))
  · exact ⟨s, rfl, h⟩
  · rename_i i hi
    have hgiven : Serving (emit (.frame (frame.getD 0 0) (frame.getD 2 0) ((frame.drop 4).take (frame.length - 7)))
        { s with rxIe := false, pollResult := true }) := { hserve with types := { hserve.types with } }
    refine hgiven.route ?_ ?_
    · obtain ⟨src, tgt, cmd, len, body, -, -, -, -, -, rfl⟩ := decodeFrame_ok hi
      exact decodeCommand_frame _ _ _ _
    · rintro block rfl
      obtain ⟨hshort, hfits⟩ := decodeFrame_block hi
      exact ⟨hshort, fun k hk => hw k (by omega)⟩

theorem frameExtent_bounds {s : State} (hc : 4 ≤ s.rxCursor) (len : Byte) :
    0 < frameExtent s len ∧ frameExtent s len ≤ s.rxCursor := by
  unfold frameExtent
  split <;> omega

theorem frameCheck_keeps {s : State} (h : Inv s) (hp : PollEnabled s) : ∃ t, frameCheck s = .next t ∧ Inv t := by
  unfold frameCheck
  split
  · rename_i hx
    obtain ⟨hq, -, hc⟩ := hx
    obtain ⟨len, hlen⟩ := Option.isSome_iff_exists.1 (by simpa using h.received 3 (by omega))
    obtain ⟨hpos, hext⟩ := frameExtent_bounds hc len
    have hw : Written s 0 (frameExtent s len) := fun k hk => h.received k (by omega)
    obtain ⟨frame, hframe⟩ := bufBytes_written hw
    rw [bufByte_ok hlen]
    simp only [hframe]
    rw [← (bufBytes_inv hframe).1] at hpos hw
    exact answerFrame_keeps h hp hq hpos hw
  · exact ⟨s, rfl, h⟩

theorem execPoll_keeps {s : State} (h : Inv s) : ∃ t, execPoll s = .next t ∧ Inv t := by
  unfold execPoll
  split
  · rename_i hp
    have h0 : Inv { s with pollResult := false } := h.of_bookkeeping false s.script s.snapQueue s.draws
    obtain ⟨u, hu, hinv, hen⟩ := housekeeping_keeps h0 hp
    rw [hu]
    obtain ⟨hinv', hen'⟩ := turnaround_keeps hinv hen
    exact frameCheck_keeps hinv' hen'
  · exact ⟨s, rfl, h⟩

/-! ### The receiver's and the transmitter's events keep the invariant -/

theorem acceptByte_keeps {s : State} (h : Inv s) (hr : s.rxIe = true) (hact : s.rxActive = true) (b : Byte) :
    ∃ t, acceptByte b s = .ok t ∧ Inv t := by
  obtain ⟨hb, hi⟩ := h.listening hr
  have q := h.quiet (h.clauses.listens_only_when_idle hr)
  unfold acceptByte
  split
  · rename_i hroom
    have hbuf := types_bufStores (a := s.rxCursor) (bs := [b]) h.types hroom
    have hw := written_storeAll (a := s.rxCursor) (bs := [b]) h.received
    rw [bufStore, if_pos hroom, ok_bind]
    refine ⟨_, rfl, Quiet.inv_of_listening
      { q with
        types := { hbuf with rx_cursor := hroom, gap_timer := le_refl _ }
        received := fun k hk => ?_
        hunting := by simp [hact] } hb hi hr⟩
    rcases Nat.lt_succ_iff_lt_or_eq.1 hk with hk | rfl
    · exact hw k hk
    · simp [Memory.find?_store_none]
  · exact ⟨_, rfl, Quiet.inv_of_listening { q with types := { h.types with gap_timer := le_refl _ } } hb hi hr⟩

theorem execRxByte_keeps {s : State} (h : Inv s) (b : Byte) : ∃ t, execRxByte b s = .next t ∧ Inv t := by
  unfold execRxByte
  split
  · rename_i hx
    obtain ⟨-, hr⟩ := hx
    split
    · rename_i hact
      exact finish_keeps (acceptByte_keeps h hr hact b)
    · split
      · obtain ⟨hb, hi⟩ := h.listening hr
        exact ⟨_, rfl, Quiet.inv_of_listening
          { h.quiet (h.clauses.listens_only_when_idle hr) with
            types := { h.types with rx_cursor := Nat.zero_le _, gap_timer := le_refl _ }
            received := written_zero _ _
            hunting := by simp } hb hi hr⟩
      · exact ⟨s, rfl, h⟩
  · exact ⟨s, rfl, h⟩

theorem execTick_keeps {s : State} (h : Inv s) : ∃ t, execTick s = .next t ∧ Inv t := by
  unfold execTick
  split
  · exact ⟨_, rfl,
      { h with
        types := { h.types with
          gap_timer := le_trans (Nat.sub_le _ _) h.types.gap_timer
          guard_timer := le_trans (Nat.sub_le _ _) h.types.guard_timer }
        clauses := { h.clauses with }
        reply_pending := fun hp => { h.reply_pending hp with }
        block := fun hb => { h.block hb with } }⟩
  · exact ⟨s, rfl, h⟩

theorem wireByte_ok {s : State} {k : Nat} (h : ReplyPending s) (hk : k < s.txSize) : ∃ b, wireByte s k = .ok b := by
  cases k with
  | zero => exact ⟨_, rfl⟩
  | succ k =>
    obtain ⟨b, hb⟩ := Option.isSome_iff_exists.1 (by simpa using h.frame k (by omega))
    exact ⟨b, bufByte_ok hb⟩

theorem handOverByte_keeps {s : State} (h : Inv s) (he : TxReadyEnabled s) : ∃ t, handOverByte s = .ok t ∧ Inv t := by
  obtain ⟨-, hie, hx, hidx, hroom⟩ := he
  have hne : s.txPhase ≠ .idle := by simp [hx]
  have hpend := h.reply_pending hne
  have hsize := h.types.tx_size
  have hdeaf := h.deaf_of_sending hne
  obtain ⟨b, hb⟩ := wireByte_ok hpend hidx
  have hset : s.txIndex + 1 ≤ s.cfg.bufSize + 1 := by omega
  have hfifo : (s.uartFifo ++ [b]).length ≤ s.cfg.uartDepth := by simpa using hroom
  rw [handOverByte, hb, ok_bind, setTxIndex, if_pos hset, ok_bind]
  refine ⟨_, rfl, ?_⟩
  unfold endTransmission
  split
  · rename_i hend
    exact inv_of_sending h.admitted
      { h.types with tx_index := hset, uart_fifo := hfifo, guard_timer := le_max_right _ _ } hdeaf h.received
      h.clauses.hunting_cursor (by simp)
      ⟨hpend.engine, hend.le, fun hn => absurd rfl hn, hpend.frame⟩ (by simp) (by simp)
  · rename_i hmore
    simp only at hmore
    exact inv_of_sending h.admitted { h.types with tx_index := hset, uart_fifo := hfifo } hdeaf h.received
      h.clauses.hunting_cursor hne
      ⟨hpend.engine, by simp only; omega, fun _ => by simp only; omega, hpend.frame⟩ (fun _ => hx) (fun _ => .inl hx)

theorem execTxReady_keeps {s : State} (h : Inv s) : ∃ t, execTxReady s = .next t ∧ Inv t := by
  unfold execTxReady
  split
  · rename_i he
    exact finish_keeps (handOverByte_keeps h he)
  · exact ⟨s, rfl, h⟩

theorem execUartShiftOut_keeps {s : State} (h : Inv s) : ∃ t, execUartShiftOut s = .next t ∧ Inv t := by
  unfold execUartShiftOut
  split
  · exact ⟨s, rfl, h⟩
  · rename_i b rest hf
    have hne : s.uartFifo ≠ [] := by simp [hf]
    have hlen := h.types.uart_fifo
    rw [hf, List.length_cons] at hlen
    exact ⟨_, rfl,
      { h with
        types := { h.types with uart_fifo := Nat.le_of_succ_le hlen }
        clauses := { h.clauses with shifting_drives := fun hb _ => h.clauses.shifting_drives hb hne }
        reply_pending := fun hp => { h.reply_pending hp with }
        fifo_phase := fun _ => h.fifo_phase hne
        block := fun hb => { h.block hb with } }⟩

/-! ### The flash engine keeps the invariant -/

/-- An aligned segment is erased in place (20 R57). -/
theorem flashErase_keeps {s : State} (ht : InTypes s) {a : Nat} (hal : a % s.cfg.segSize = 0)
    (hin : InFlash s a s.cfg.segSize) :
    ∃ flash, flashErase a s = .ok { s with flash := flash } ∧ InTypes { s with flash := flash } := by
  have hbase : segmentBase s a = a := segmentBase_aligned hal
  exact ⟨_, flashErase_ok (by rw [hbase]; exact hin), types_flashClear ht _ _⟩

theorem flashWriteWord_keeps {s : State} (ht : InTypes s) {a : Nat} (w : Word16) (he : a % 2 = 0)
    (hin : InFlash s a 2) :
    ∃ flash, flashWriteWord a w s = .ok { s with flash := flash } ∧ InTypes { s with flash := flash } :=
  ⟨_, flashWriteWord_ok he hin, types_flashStores ht hin⟩

/-- The segment a copy works on lies in the image copied to. -/
theorem copy_segment {s : State} (ha : s.cfg.Admitted) (hseg : s.feSeg < s.cfg.nseg) :
    (copyDst s + s.feSeg * s.cfg.segSize) % s.cfg.segSize = 0 ∧
      InFlash s (copyDst s + s.feSeg * s.cfg.segSize) s.cfg.segSize := by
  obtain ⟨hlow, hhigh, hal⟩ := copyDst_range ha
  have hfit := segment_in_image ha hseg
  exact ⟨by rw [Nat.add_mul_mod_self_right, hal], by omega, by omega⟩

/-- The word a copy works on lies, aligned, in the image `base` that is copied from or to. -/
theorem copy_word {s : State} (ha : s.cfg.Admitted) (hseg : s.feSeg < s.cfg.nseg) (hoff : s.feOff < s.cfg.segSize)
    (heven : s.feOff % 2 = 0) {base : Nat}
    (hbase : s.cfg.flashBase ≤ base ∧ base + s.cfg.imageLen ≤ s.cfg.flashEnd ∧ base % s.cfg.segSize = 0) :
    (base + copyOffset s) % 2 = 0 ∧ InFlash s (base + copyOffset s) 2 := by
  obtain ⟨hlow, hhigh, hal⟩ := hbase
  obtain ⟨-, hseg2, -⟩ := admitted_geometry ha
  have hfit := segment_in_image ha hseg
  have hstart : (base + s.feSeg * s.cfg.segSize) % 2 = 0 :=
    even_of_segment_multiple ha (by rw [Nat.add_mul_mod_self_right, hal])
  simp only [copyOffset, InFlash]
  omega

theorem Inv.copy_erasing {s : State} (h : Inv s) (hf : s.feState = .selfHeal ∨ s.feState = .reflashing)
    (hop : s.feOp = .erase) : s.feSeg < s.cfg.nseg := by
  simpa [CopyPosition, hop] using h.copy hf

theorem Inv.copy_writing {s : State} (h : Inv s) (hf : s.feState = .selfHeal ∨ s.feState = .reflashing)
    (hop : s.feOp = .write) : s.feSeg < s.cfg.nseg ∧ s.feOff < s.cfg.segSize ∧ s.feOff % 2 = 0 := by
  simpa [CopyPosition, hop] using h.copy hf

/-- A copy never verifies: 44 R205 has no rule for it. -/
theorem Inv.copy_not_verifying {s : State} (h : Inv s) (hf : s.feState = .selfHeal ∨ s.feState = .reflashing) :
    s.feOp ≠ .verify := by
  intro hop
  simpa [CopyPosition, hop] using h.copy hf

/-- The segment a block write erases begins at the block's address and ends below DESTINATION (44 R213, R215). -/
theorem Inv.block_erasing {s : State} (h : Inv s) (hf : s.feState = .blockWrite) (hop : s.feOp = .erase) :
    s.bwAddr.toNat % s.cfg.segSize = 0 ∧ s.feOff = 0 ∧ InFlash s s.bwAddr.toNat s.cfg.segSize := by
  have hb := h.block hf
  obtain ⟨-, hlow, hhigh⟩ := hb.address
  obtain ⟨hal, hoff⟩ : s.bwAddr.toNat % s.cfg.segSize = 0 ∧ s.feOff = 0 := by simpa [hop] using hb.op
  obtain ⟨-, -, -, -, -, -, hdest, -, -, hend, -⟩ := admitted_geometry h.admitted
  have hdvd := Nat.dvd_sub (Nat.dvd_of_mod_eq_zero hdest) (Nat.dvd_of_mod_eq_zero hal)
  have hfits := Nat.le_of_dvd (by omega) hdvd
  exact ⟨hal, hoff, hlow, by omega⟩

/-- The word a block write programs is aligned and lies in the flash (44 R213, R216). -/
theorem Inv.block_writing {s : State} (h : Inv s) (hf : s.feState = .blockWrite) (hop : s.feOp = .write) :
    s.feOff < s.bwLen.toNat ∧ s.feOff % 2 = 0 ∧ (s.bwAddr.toNat + s.feOff) % 2 = 0 ∧
      InFlash s (s.bwAddr.toNat + s.feOff) 2 := by
  have hb := h.block hf
  obtain ⟨heven, hlow, hhigh⟩ := hb.address
  obtain ⟨hoff, hoffeven⟩ : s.feOff < s.bwLen.toNat ∧ s.feOff % 2 = 0 := by simpa [hop] using hb.op
  obtain ⟨-, -, himg, -, -, -, -, -, -, hend, -⟩ := admitted_geometry h.admitted
  exact ⟨hoff, hoffeven, by omega, by omega, by omega⟩

theorem copyErase_keeps {s : State} (h : Inv s) (hf : s.feState = .selfHeal ∨ s.feState = .reflashing)
    (hop : s.feOp = .erase) : ∃ t, copyErase s = .ok t ∧ Inv t := by
  have hseg := h.copy_erasing hf hop
  have hsize := (admitted_geometry h.admitted).1
  obtain ⟨hal, hin⟩ := copy_segment h.admitted hseg
  obtain ⟨flash, herase, ht⟩ := flashErase_keeps h.types hal hin
  rw [copyErase, herase, ok_bind]
  refine ⟨_, rfl, h.engine_moves (by rcases hf with hf | hf <;> simp [hf]) { ht with fe_off := Nat.zero_le _ }
    (fun _ => .inr (.inl ⟨rfl, hseg, ?_, rfl⟩)) (fun hb => ?_)⟩
  · show 0 < s.cfg.segSize
    omega
  · rcases hf with hf | hf <;> simp [hf] at hb

theorem copyWord_keeps {s : State} (ht : InTypes s) (w : Word16) (he : (copyDst s + copyOffset s) % 2 = 0)
    (hin : InFlash s (copyDst s + copyOffset s) 2) :
    ∃ flash, copyWord w s = .ok { s with flash := flash } ∧ InTypes { s with flash := flash } := by
  unfold copyWord
  split
  · exact ⟨s.flash, rfl, ht⟩
  · exact flashWriteWord_keeps ht w he hin

theorem copyWrite_keeps {s : State} (h : Inv s) (hf : s.feState = .selfHeal ∨ s.feState = .reflashing)
    (hop : s.feOp = .write) : ∃ t, copyWrite s = .ok t ∧ Inv t := by
  obtain ⟨hseg, hoff, heven⟩ := h.copy_writing hf hop
  have hbusy : s.feState ≠ .idle := by rcases hf with hf | hf <;> simp [hf]
  have hnotblock : s.feState ≠ .blockWrite := by rcases hf with hf | hf <;> simp [hf]
  obtain ⟨-, hseg2, -⟩ := admitted_geometry h.admitted
  obtain ⟨-, hsrc⟩ := copy_word h.admitted hseg hoff heven (copySrc_range h.admitted)
  obtain ⟨he, hdst⟩ := copy_word h.admitted hseg hoff heven (copyDst_range h.admitted)
  obtain ⟨flash, hword, ht⟩ := copyWord_keeps h.types (flashWord s (copySrc s + copyOffset s)) he hdst
  have hset : s.feOff + 2 ≤ max s.cfg.segSize 256 := by omega
  rw [copyWrite, memRead16_ok hsrc, ok_bind, hword, ok_bind, setFeOff, if_pos hset, ok_bind, copyAdvance]
  simp only
  split
  · have hnext : s.feSeg + 1 ≤ s.cfg.nseg := hseg
    rw [setFeSeg, if_pos hnext, ok_bind]
    refine ⟨_, rfl, h.engine_moves hbusy { ht with fe_seg := hnext, fe_off := Nat.zero_le _ } (fun _ => ?_)
      (fun hb => absurd hb hnotblock)⟩
    simp only [CopyPosition]
    by_cases hlast : s.feSeg + 1 < s.cfg.nseg
    · simp [hlast]
    · simp [hlast]
      omega
  · refine ⟨_, rfl, h.engine_moves hbusy { ht with fe_off := hset }
      (fun _ => .inr (.inl ⟨hop, hseg, ?_, ?_⟩)) (fun hb => absurd hb hnotblock)⟩
    · simp only
      omega
    · simp only
      omega

theorem Quiet.boot {s : State} (q : Quiet s) : Inv (boot s) :=
  Quiet.inv_of_listening { q with types := { q.types with } } rfl rfl rfl

theorem Quiet.emit {s : State} (q : Quiet s) (r : Record) : Quiet (emit r s) := { q with types := { q.types with } }

theorem Quiet.flashErr {s : State} (q : Quiet s) (err : Bool) : Quiet { s with flashErr := err } :=
  { q with types := { q.types with } }

theorem startupCheck_keeps {s : State} (h : Inv s) (hf : s.feState = .startupCheck) :
    ∃ t, startupCheck s = .ok t ∧ Inv t := by
  have hbusy : s.feState ≠ .idle := by simp [hf]
  have hunbooted : s.booted ≠ true := fun hb => (h.booted_states hb).1 hf
  obtain ⟨⟨bbad, hbbad⟩, ⟨pbad, hpbad⟩⟩ := image_checked h.admitted
  have q := (h.quiet_of_busy hbusy).emit (.check pbad bbad)
  have hdeaf := h.deaf_of_busy hbusy
  rw [startupCheck, hpbad, ok_bind, hbbad, ok_bind]
  match pbad, bbad with
  | true, false => exact ⟨_, rfl, q.enterCopy hdeaf (.inr rfl) fun hb => absurd hb hunbooted⟩
  | true, true => exact ⟨_, rfl, (q.flashErr true).boot⟩
  | false, true => exact ⟨_, rfl, q.enterCopy hdeaf (.inl rfl) fun hb => absurd hb hunbooted⟩
  | false, false => exact ⟨_, rfl, q.boot⟩

theorem selfHealFinish_keeps {s : State} (h : Inv s) (hbusy : s.feState ≠ .idle) :
    ∃ t, selfHealFinish s = .ok t ∧ Inv t := by
  obtain ⟨⟨bad, hbad⟩, -⟩ := image_checked h.admitted
  have q := h.quiet_of_busy hbusy
  rw [selfHealFinish, hbad, ok_bind]
  cases bad with
  | true => exact ⟨_, rfl, (q.flashErr true).boot⟩
  | false => exact ⟨_, rfl, q.boot⟩

theorem reflashFinish_keeps {s : State} (h : Inv s) (hbusy : s.feState ≠ .idle) : Inv (reflashFinish s) :=
  Quiet.inv_of_busy { h.quiet_of_busy hbusy with types := { h.types with } } (by simp) (h.deaf_of_busy hbusy) (by simp)
    (by simp) (by simp)

theorem blockErase_keeps {s : State} (h : Inv s) (hf : s.feState = .blockWrite) (hop : s.feOp = .erase) :
    ∃ t, blockErase s = .ok t ∧ Inv t := by
  obtain ⟨hal, hoff, hin⟩ := h.block_erasing hf hop
  obtain ⟨flash, herase, ht⟩ := flashErase_keeps h.types hal hin
  rw [blockErase, herase, ok_bind]
  refine ⟨_, rfl, h.engine_moves (by simp [hf]) { ht with } (by simp [hf]) (fun _ => { h.block hf with op := ?_ })⟩
  simp only [hoff]
  by_cases hl : 0 < s.bwLen.toNat <;> simp [hl]

theorem blockWriteWord_keeps {s : State} (h : Inv s) (hf : s.feState = .blockWrite) (hop : s.feOp = .write) :
    ∃ t, blockWriteWord s = .ok t ∧ Inv t := by
  have hb := h.block hf
  have hlen := hb.length
  obtain ⟨hoff, hoffeven, heven, hin⟩ := h.block_writing hf hop
  have hread : ∀ k < s.bwLen.toNat, ∃ b, bufByte s (8 + k) = .ok b := fun k hk => by
    obtain ⟨b, hbyte⟩ := Option.isSome_iff_exists.1 (by simpa using hb.request (8 + k) (by omega))
    exact ⟨b, bufByte_ok hbyte⟩
  obtain ⟨lo, hlo⟩ := hread s.feOff hoff
  obtain ⟨hi, hhi⟩ : ∃ b, blockHighByte s s.feOff = .ok b := by
    unfold blockHighByte
    split
    · rename_i hmore
      exact hread _ hmore
    · exact ⟨_, rfl⟩
  obtain ⟨flash, hwrite, ht⟩ := flashWriteWord_keeps h.types (le16 lo hi) heven hin
  have hset : s.feOff + 2 ≤ max s.cfg.segSize 256 := by omega
  rw [blockWriteWord, hlo, ok_bind, hhi, ok_bind, hwrite, ok_bind, setFeOff, if_pos hset, ok_bind]
  refine ⟨_, rfl,
    h.engine_moves (by simp [hf]) { ht with fe_off := hset } (by simp [hf]) (fun _ => { hb with op := ?_ })⟩
  simp only
  by_cases hl : s.bwLen.toNat ≤ s.feOff + 2
  · simp [hl]
  · simp only [if_neg hl]
    exact .inr (.inl ⟨trivial, Nat.lt_of_not_le hl, by rw [Nat.add_mod_right, hoffeven]⟩)

theorem blockVerify_keeps {s : State} (h : Inv s) (hf : s.feState = .blockWrite) :
    ∃ t, blockVerify s = .ok t ∧ Inv t := by
  have hb := h.block hf
  have hbusy : s.feState ≠ .idle := by simp [hf]
  obtain ⟨-, hlow, hhigh⟩ := hb.address
  obtain ⟨-, -, -, -, -, -, -, -, -, hend, -⟩ := admitted_geometry h.admitted
  have hserve : Serving { s with feState := .idle } :=
    { h.quiet_of_busy hbusy with
      types := { h.types with }
      booted := hb.booted
      idle := rfl
      deaf := h.deaf_of_busy hbusy
      source := by simpa using hb.request 0 (by omega) }
  obtain ⟨sent, hsent⟩ := bufBytes_written (i := 8) (n := s.bwLen.toNat) fun k hk => by
    simpa using hb.request (8 + k) (by omega)
  rw [blockVerify, memRead_ok ⟨hlow, by omega⟩, ok_bind, hsent, ok_bind]
  simp only
  split
  · exact hserve.reply (payload := [_]) _ (Nat.le_add_left _ _)
  · exact hserve.takeError (by decide) (by decide)

/-- The engine has a rule for the pair of `fe_state` and `fe_op` it is in, and the rule ends in a good state
(44 R205). -/
theorem execFlashStep_keeps {s : State} (h : Inv s) : ∃ t, execFlashStep s = .next t ∧ Inv t := by
  have hblock : s.feState = .blockWrite → s.feOp ≠ .finish := fun hf hop => by simpa [hop] using (h.block hf).op
  unfold execFlashStep
  split
  case h_1 hf => exact finish_keeps (startupCheck_keeps h hf)
  case h_2 hf hop => exact finish_keeps (copyErase_keeps h (.inl hf) hop)
  case h_3 hf hop => exact finish_keeps (copyWrite_keeps h (.inl hf) hop)
  case h_4 hf hop => exact finish_keeps (selfHealFinish_keeps h (by simp [hf]))
  case h_5 hf hop => exact absurd hop (h.copy_not_verifying (.inl hf))
  case h_6 hf hop => exact finish_keeps (copyErase_keeps h (.inr hf) hop)
  case h_7 hf hop => exact finish_keeps (copyWrite_keeps h (.inr hf) hop)
  case h_8 hf hop => exact ⟨_, rfl, reflashFinish_keeps h (by simp [hf])⟩
  case h_9 hf hop => exact absurd hop (h.copy_not_verifying (.inr hf))
  case h_10 hf hop => exact finish_keeps (blockErase_keeps h hf hop)
  case h_11 hf hop => exact finish_keeps (blockWriteWord_keeps h hf hop)
  case h_12 hf hop => exact finish_keeps (blockVerify_keeps h hf)
  case h_13 hf hop => exact absurd hop (hblock hf)
  case h_14 => exact ⟨s, rfl, h⟩
  case h_15 => exact ⟨s, rfl, h⟩

/-! ### Reset, power failure and launch meet the invariant -/

/-- The launch state with any flash content inside the flash (70 R274). -/
theorem inv_launch {c : Config} {flash : Memory} (ha : c.Admitted) (hwf : flash.wf (some c.erasedByte))
    (hrange : ∀ x ∈ flash, c.flashBase ≤ x.1 ∧ x.1 < c.flashEnd) : Inv (State.launch c flash) := by
  refine Quiet.inv_of_busy ⟨ha, ?_, rfl, rfl, rfl, written_zero _ _, fun _ => rfl⟩ (by simp [State.launch]) rfl
    (by simp [State.launch]) (by simp [State.launch]) (by simp [State.launch])
  exact
    { buf_form := ⟨List.Pairwise.nil, by simp [State.launch]⟩
      buf_range := by simp [State.launch]
      rx_cursor := Nat.zero_le _
      gap_timer := Nat.zero_le _
      tx_index := Nat.zero_le _
      tx_size := Nat.zero_le _
      guard_timer := Nat.zero_le _
      uart_fifo := Nat.zero_le _
      fe_seg := Nat.zero_le _
      fe_off := Nat.zero_le _
      flash_form := hwf
      flash_range := hrange }

/-- A reset goes back to the launch state over the same flash; the histories and the model's own fields stay
(10 R39). -/
theorem inv_after_reset {s : State} (ht : InTypes s) (ha : s.cfg.Admitted) {r : Record} :
    Inv (emit r (resetElements s)) :=
  have h := inv_launch ha ht.flash_form ht.flash_range
  { h with
    types := { h.types with }
    clauses := { h.clauses with }
    reply_pending := fun hp => { h.reply_pending hp with }
    block := fun hb => { h.block hb with } }

theorem execReset_keeps {s : State} (h : Inv s) (c : ResetSource) : ∃ t, execReset c s = .next t ∧ Inv t := by
  unfold execReset
  split
  · exact ⟨_, rfl, inv_after_reset h.types h.admitted⟩
  · exact ⟨s, rfl, h⟩

/-- The bytes the next micro-operation would change lie in the flash, if there are any (44 R221). -/
theorem pfTarget_in_flash {s : State} (h : Inv s) : (pfTarget s).2 = 0 ∨ InFlash s (pfTarget s).1 (pfTarget s).2 := by
  have herasing (hf : s.feState = .selfHeal ∨ s.feState = .reflashing) (hop : s.feOp = .erase) :=
    (copy_segment h.admitted (h.copy_erasing hf hop)).2
  have hwriting (hf : s.feState = .selfHeal ∨ s.feState = .reflashing) (hop : s.feOp = .write) :
      InFlash s (copyDst s + copyOffset s) 2 := by
    obtain ⟨hseg, hoff, heven⟩ := h.copy_writing hf hop
    exact (copy_word h.admitted hseg hoff heven (copyDst_range h.admitted)).2
  unfold pfTarget
  split
  case h_1 hf hop => exact .inr (herasing (.inr hf) hop)
  case h_2 hf hop => exact .inr (herasing (.inl hf) hop)
  case h_3 hf hop =>
    split
    · exact .inl rfl
    · exact .inr (hwriting (.inr hf) hop)
  case h_4 hf hop =>
    split
    · exact .inl rfl
    · exact .inr (hwriting (.inl hf) hop)
  case h_5 hf hop =>
    obtain ⟨hal, -, hin⟩ := h.block_erasing hf hop
    exact .inr (by rw [segmentBase_aligned hal]; exact hin)
  case h_6 hf hop =>
    obtain ⟨-, -, -, hin⟩ := h.block_writing hf hop
    exact .inr hin
  case h_7 => exact .inl rfl

theorem flashStores_keeps {s : State} (ht : InTypes s) {a : Nat} {bs : Bytes} (hin : bs = [] ∨ InFlash s a bs.length) :
    ∃ flash, flashStores a bs s = .ok { s with flash := flash } ∧ InTypes { s with flash := flash } := by
  rcases hin with rfl | hin
  · exact ⟨s.flash, rfl, ht⟩
  · exact ⟨_, flashStores_ok hin, types_flashStores ht hin⟩

theorem execPowerFail_keeps {s : State} (h : Inv s) (d : Bytes) : ∃ t, execPowerFail d s = .next t ∧ Inv t := by
  have hin : (drawBytes (pfTarget s).2 d s).1 = [] ∨
      InFlash s (pfTarget s).1 (drawBytes (pfTarget s).2 d s).1.length := by
    rw [← List.length_eq_zero_iff, drawBytes_length]
    exact pfTarget_in_flash h
  have htypes : InTypes (drawBytes (pfTarget s).2 d s).2 := { h.types with }
  obtain ⟨flash, hstore, ht⟩ := flashStores_keeps htypes hin
  have hgood := inv_after_reset (r := .reset .powerFail) ht h.admitted
  rw [execPowerFail, powerFail, hstore, ok_bind, pure_eq_ok]
  exact ⟨_, rfl, hgood⟩

/-! ### Every event and every step -/

theorem exec_event_keeps {s : State} (h : Inv s) (e : Event) : ∃ t, exec e.instr s = .next t ∧ Inv t := by
  cases e with
  | rxByte b => exact execRxByte_keeps h b
  | tick => exact execTick_keeps h
  | poll => exact execPoll_keeps h
  | txReady => exact execTxReady_keeps h
  | uartShiftOut => exact execUartShiftOut_keeps h
  | flashStep => exact execFlashStep_keeps h
  | reset c => exact execReset_keeps h c
  | powerFail d => exact execPowerFail_keeps h d

/-- Taking the next event changes the script, the queued snapshots and the draw counter only. -/
theorem takeEvent_keeps {s : State} (h : Inv s) (items : List Stimulus) : Inv (takeEvent s items).2 := by
  induction items generalizing s with
  | nil => exact h.of_bookkeeping _ _ _ _
  | cons item rest ih =>
    cases item with
    | event e => exact h.of_bookkeeping _ _ _ _
    | snap bytes => exact ih (h.of_bookkeeping _ _ _ _)
    | drain =>
      rw [takeEvent]
      split
      · exact h.of_bookkeeping _ _ _ _
      · split
        · exact h.of_bookkeeping _ _ _ _
        · exact ih h
    | flash =>
      rw [takeEvent]
      split
      · exact h.of_bookkeeping _ _ _ _
      · exact ih h

theorem step_keeps {s : State} (h : Inv s) : ∃ t, step s = .next t ∧ Inv t := by
  rw [step_of_admitted h.admitted]
  exact exec_event_keeps (takeEvent_keeps h s.script) _

theorem run_succ_of_next {M : Host.Core} {s u : M.State} (h : M.step s = .next u) (n : Nat) :
    M.run (n + 1) s = M.run n u := by
  simp only [Host.Core.run, h]

/-- Every run from a good state goes on, and stays good. -/
theorem run_keeps {s : State} (h : Inv s) (n : Nat) :
    ∃ t : State, Host.Core.run Sys2Proof.core n s = .next t ∧ Inv t := by
  induction n generalizing s with
  | zero => exact ⟨s, rfl, h⟩
  | succ n ih =>
    obtain ⟨u, hu, hinv⟩ := step_keeps h
    obtain ⟨t, ht, hgood⟩ := ih hinv
    exact ⟨t, (run_succ_of_next (M := Sys2Proof.core) hu n).trans ht, hgood⟩

/-- Settles O53: each event keeps the invariant, and a step is an event taken from a state that still meets it. -/
theorem everyStepKeepsTheInvariant : Obligations.EveryStepKeepsTheInvariant := fun _ h =>
  ⟨exec_event_keeps h, step_keeps h⟩

/-- Settles O54, `State.reset` being the launch state of `REF` over an empty flash. -/
theorem launchMeetsTheInvariant : Obligations.LaunchMeetsTheInvariant :=
  ⟨fun _ _ => inv_launch, inv_launch (by decide) ⟨List.Pairwise.nil, by simp⟩ (by simp)⟩

/-- Settles O55: the invariant, which has the clauses, holds at launch and along every run. -/
theorem reachableStatesMeetTheClauses : Obligations.ReachableStatesMeetTheClauses := by
  intro c flash script n ha hwf hrange
  have hlaunch := (inv_launch ha hwf hrange).of_bookkeeping false script [] 0
  obtain ⟨t, ht, hinv⟩ := run_keeps hlaunch n
  exact ⟨t, ht, hinv.clauses⟩

end Sys2Proof.Machine
end

section
/-! Proofs for 10_state: what the router, an enabled POLL and any other instruction can do, said once for each as the
outcomes it has from an arbitrary state; and the frames, counters, histories and registers that follow from it. -/

namespace Sys2Proof.Machine

/-! ### What the router can do -/

/-- The three exits of 43 R170: a reply after records, a block write, a reflash. -/
inductive RouterExit (s : State) : State → Prop
  | replied (code source : Byte) (payload : Bytes) (queue : List Bytes) (draws : Nat) {records : List Record}
      (hlog : ∃ new, records = s.hostLog ++ new) :
      RouterExit s (replied code source payload { s with hostLog := records, snapQueue := queue, draws := draws })
  | started (addr : Word16) (len : Byte) : RouterExit s (startBlockWrite addr len s)
  | reflashing : RouterExit s (enterCopy .reflashing s)

theorem RouterExit.of_reply {s t : State} {code : Byte} {payload : Bytes} {queue : List Bytes} {draws : Nat}
    {records : List Record} (new : List Record) (hlog : records = s.hostLog ++ new)
    (h : finish (reply code payload { s with hostLog := records, snapQueue := queue, draws := draws }) = .next t) :
    RouterExit s t := by
  obtain ⟨source, -, -, rfl⟩ := reply_inv (finish_next h)
  exact .replied code source payload queue draws ⟨new, hlog⟩

theorem RouterExit.of_reply_now {s t : State} {code : Byte} {payload : Bytes}
    (h : finish (reply code payload s) = .next t) :
    RouterExit s t := .of_reply [] (List.append_nil _).symm h

theorem RouterExit.of_writeFwBlock {s t : State} {block : Bytes} (h : execWriteFwBlock block s = .next t) :
    RouterExit s t := by
  unfold execWriteFwBlock at h
  split at h
  · exact .of_reply_now h
  · split at h
    · cases h
      exact .started _ _
    · exact .of_reply_now h

theorem RouterExit.of_reflashTrigger {s t : State} (h : finish (reflashTrigger s) = .next t) : RouterExit s t := by
  obtain ⟨bad, -, hb⟩ := bind_ok (finish_next h)
  cases bad with
  | true => exact .of_reply_now (congrArg finish hb)
  | false => cases hb; exact .reflashing

/-- Every row of the router leaves by one of the three exits. -/
theorem route_exit {i : Instr} {s t : State} (h : route i s = .next t) : RouterExit s t := by
  cases i with
  | degradedRead payload => exact .of_reply_now h
  | degradedWriteThenRead payload =>
    have h : finish (degradedReply (degradedControls payload s)) = .next t := h
    unfold degradedControls at h
    split at h
    · split at h
      · exact .of_reply [_] rfl h
      · exact .of_reply_now h
    · exact .of_reply_now h
  | emptyPayload cmd => exact .of_reply_now h
  | readFwId extra => exact .of_reply_now h
  | readCompiler extra => exact .of_reply_now h
  | readTarget extra => exact .of_reply_now h
  | readControlStatus extra => exact .of_reply [_] rfl h
  | writeControlStatus ctrl => exact .of_reply [_] rfl h
  | writeThenReadControlStatus ctrl => exact .of_reply [_, _] (List.append_assoc _ _ _) h
  | writeFwBlock block => exact .of_writeFwBlock h
  | writeReflash extra => exact .of_reflashTrigger h
  | unknownPair cmd loc rest => exact .of_reply_now h
  | rxByte | tick | poll | txReady | uartShiftOut | flashStep | reset | powerFail => cases h

/-! ### What an enabled POLL can do -/

/-- The outcomes of an enabled POLL (41 R127 to R131). -/
inductive PollOutcome (s : State) : State → Prop
  | waits : PollOutcome s { s with pollResult := false }
  | sends (hpre : s.txPhase = .pre) : PollOutcome s { s with pollResult := false, txPhase := .xmit, txIe := true }
  | resumes (hpost : s.txPhase = .post) : PollOutcome s (resumeReceiving { s with pollResult := false })
  | drops {r : Record} (hr : r = .abandon ∨ ∃ reason, r = .discard reason) (hidle : s.txPhase = .idle) :
      PollOutcome s (dropFrame r { s with pollResult := false })
  | rejects (source : Byte) (hidle : s.txPhase = .idle) :
      PollOutcome s (replied s.cfg.nackCode source []
        (emit .crcReject { s with pollResult := false, rxIe := false, badCrcCount := s.badCrcCount + 1 }))
  | dispatches (source cmd : Byte) (payload : Bytes) (hidle : s.txPhase = .idle) {t : State}
      (ht : RouterExit (emit (.frame source cmd payload) { s with pollResult := true, rxIe := false }) t) :
      PollOutcome s t

theorem housekeeping_ok {s t : State} (h : housekeeping s = .ok t) :
    t = s ∨ s.txPhase = .idle ∧ t = dropFrame .abandon s := by
  unfold housekeeping at h
  split at h
  · rename_i hx
    obtain ⟨complete, -, h⟩ := bind_ok h
    cases complete with
    | true => cases h; exact .inl rfl
    | false => cases h; exact .inr ⟨hx.1, rfl⟩
  · cases h
    exact .inl rfl

theorem frameCheck_of_not_receiving {s : State} (h : s.txPhase ≠ .idle ∨ s.rxActive = false) : frameCheck s = .next s :=
  if_neg fun hx => h.elim (fun hp => hp hx.1) fun ha => by simp [ha] at hx

/-- The frame check reads a frame, or leaves the state as it is. -/
theorem frameCheck_next {s t : State} (h : frameCheck s = .next t) :
    t = s ∨ s.txPhase = .idle ∧ ∃ frame, answerFrame frame s = .next t := by
  unfold frameCheck at h
  split at h
  · rename_i hx
    split at h
    · cases h
    · split at h
      · cases h
      · exact .inr ⟨hx.1, _, h⟩
  · cases h
    exact .inl rfl

theorem answerFrame_outcome {s t : State} {frame : Bytes} (hidle : s.txPhase = .idle)
    (h : answerFrame frame { s with pollResult := false } = .next t) : PollOutcome s t := by
  unfold answerFrame at h
  split at h
  case h_1 => cases h; exact .drops (.inr ⟨_, rfl⟩) hidle
  case h_2 => cases h; exact .drops (.inr ⟨_, rfl⟩) hidle
  case h_3 => cases h; exact .drops (.inr ⟨_, rfl⟩) hidle
  case h_4 =>
    obtain ⟨source, -, -, rfl⟩ := reply_inv (finish_next h)
    exact .rejects source hidle
  case h_5 => cases h; exact .waits
  case h_6 => exact .dispatches _ _ _ hidle (route_exit h)

theorem turnaround_of_idle {s : State} (h : s.txPhase = .idle) : turnaround s = s := by
  simp only [turnaround, h]

theorem turnaround_cases (s : State) :
    turnaround s = s ∨ s.txPhase = .pre ∧ turnaround s = { s with txPhase := .xmit, txIe := true } ∨
      s.txPhase = .post ∧ turnaround s = resumeReceiving s := by
  cases hp : s.txPhase with
  | idle | xmit => exact .inl (by simp only [turnaround, hp])
  | pre => by_cases hg : s.guardTimer = 0 <;> simp [turnaround, hp, hg]
  | post => by_cases hg : s.guardTimer = 0 ∧ s.uartFifo = [] <;> simp [turnaround, hp, hg]

theorem execPoll_outcome {s t : State} (hp : PollEnabled s) (h : exec .poll s = .next t) : PollOutcome s t := by
  replace h : execPoll s = .next t := h
  rw [execPoll, if_pos hp] at h
  split at h
  · cases h
  · rename_i u hu
    rcases housekeeping_ok hu with rfl | ⟨hidle, rfl⟩
    · rcases turnaround_cases { s with pollResult := false } with hturn | ⟨hpre, hturn⟩ | ⟨hpost, hturn⟩
      · rw [hturn] at h
        rcases frameCheck_next h with rfl | ⟨hidle, frame, hframe⟩
        · exact .waits
        · exact answerFrame_outcome hidle hframe
      · rw [hturn, frameCheck_of_not_receiving (.inl (by simp))] at h
        cases h
        exact .sends hpre
      · rw [hturn, frameCheck_of_not_receiving (.inr rfl)] at h
        cases h
        exact .resumes hpost
    · rw [turnaround_of_idle (s := dropFrame .abandon { s with pollResult := false }) hidle,
        frameCheck_of_not_receiving (.inr rfl)] at h
      cases h
      exact .drops (.inl rfl) hidle

/-! ### POLL on a complete frame -/

/-- A complete frame is decoded by the checks of 41 R130 in their order, then by the opcode map. -/
theorem decodeFrame_of_complete {c : Config} {flashErr : Bool} {frame : Bytes} (h7 : 7 ≤ frame.length)
    (hlen : frame.length = (frame.getD 3 0).toNat + 1) :
    decodeFrame c flashErr frame =
      if frame.getD (frame.length - 1) 0 ≠ c.endByte then .error .badEnd
      else if frame.getD 1 0 ≠ c.devAddr then .error .foreign
      else if c.crcIsInvalid frame (frame.length - 3) = true then .error .badCrc
      else .ok (decodeCommand c flashErr (frame.getD 2 0) ((frame.drop 4).take (frame.length - 7))) := by
  match frame with
  | src :: tgt :: cmd :: len :: body =>
    simp only [List.length_cons, List.getD_cons_succ, List.getD_cons_zero] at h7 hlen
    have hpos : len.toNat - 4 < body.length := by omega
    have hdrop : body.drop (len.toNat - 4) = [body[len.toNat - 4]] := by
      rw [List.drop_eq_getElem_cons hpos, List.drop_eq_nil_of_le (by omega)]
    have hend : (src :: tgt :: cmd :: len :: body).getD ((src :: tgt :: cmd :: len :: body).length - 1) 0 =
        body[len.toNat - 4] := by
      rw [show (src :: tgt :: cmd :: len :: body).length - 1 = len.toNat - 4 + 4 by simp only [List.length_cons]; omega]
      simp [hpos]
    rw [hend, decodeFrame, if_neg (by omega), hdrop]
    rw [show len.toNat - 2 = (src :: tgt :: cmd :: len :: body).length - 3 by simp only [List.length_cons]; omega,
      show len.toNat - 6 = (src :: tgt :: cmd :: len :: body).length - 7 by simp only [List.length_cons]; omega]
    rfl

theorem execPoll_of_frame {s : State} {frame : Bytes} (h : FrameArrived s frame) :
    exec .poll s = answerFrame frame { s with pollResult := false } := by
  obtain ⟨hp, hidle, hact, hholds, hlen, hcursor, h7⟩ := h
  have hbyte : bufByte s 3 = .ok (frame.getD 3 0) := by
    rw [List.getD_eq_getElem _ _ (by omega)]
    exact bufByte_ok (by simpa using hholds 3 (by omega))
  have hbyte0 : bufByte { s with pollResult := false } 3 = .ok (frame.getD 3 0) := hbyte
  have hcomplete : frameComplete { s with pollResult := false } = .ok true := by
    rw [frameComplete, if_neg (by show ¬ s.rxCursor < 4; omega), hbyte0, ok_bind, pure_eq_ok]
    simp only [Except.ok.injEq, decide_eq_true_eq]
    omega
  have hkeep : housekeeping { s with pollResult := false } = .ok { s with pollResult := false } := by
    unfold housekeeping
    split
    · rw [hcomplete, ok_bind]
      rfl
    · rfl
  have hext : frameExtent { s with pollResult := false } (frame.getD 3 0) = frame.length := by
    rw [frameExtent, if_neg (by show ¬ (_ ∨ s.rxCursor < _); omega), hlen]
  have hread : bufBytes { s with pollResult := false } 0 frame.length = .ok frame := bufBytes_holds hholds
  show execPoll s = _
  rw [execPoll, if_pos hp, hkeep]
  simp only [turnaround_of_idle (s := { s with pollResult := false }) hidle]
  rw [frameCheck, if_pos ⟨hidle, hact, by show 4 ≤ s.rxCursor; omega⟩, hbyte0]
  simp only [hext, hread]

/-! ### Histories and counters -/

/-- `t` differs from `s`, in `bad_crc_count`, `flash_err` and the histories, by new records only. -/
structure OnlyAppends (s t : State) : Prop where
  bad_crc_count : t.badCrcCount = s.badCrcCount
  flash_err : t.flashErr = s.flashErr
  host_log : ∃ new, t.hostLog = s.hostLog ++ new
  wire_out : t.wireOut = s.wireOut

theorem OnlyAppends.refl (s : State) : OnlyAppends s s := ⟨rfl, rfl, ⟨[], (List.append_nil _).symm⟩, rfl⟩

theorem OnlyAppends.emit (r : Record) (s : State) : OnlyAppends s (emit r s) := ⟨rfl, rfl, ⟨[r], rfl⟩, rfl⟩

theorem OnlyAppends.trans {s t u : State} (h : OnlyAppends s t) (k : OnlyAppends t u) : OnlyAppends s u := by
  obtain ⟨h1, h2, ⟨new, h3⟩, h4⟩ := h
  obtain ⟨k1, k2, ⟨more, k3⟩, k4⟩ := k
  exact ⟨k1.trans h1, k2.trans h2, ⟨new ++ more, by rw [k3, h3, List.append_assoc]⟩, k4.trans h4⟩

theorem RouterExit.onlyAppends {s t : State} (h : RouterExit s t) : OnlyAppends s t := by
  cases h with
  | replied code source payload queue draws hlog => exact ⟨rfl, rfl, hlog, rfl⟩
  | started addr len => exact { OnlyAppends.refl s with }
  | reflashing => exact { OnlyAppends.refl s with }

/-- What an instruction does to `bad_crc_count`, `flash_err` and the histories (10 R23, R30, R31). -/
inductive RecordOutcome (i : Instr) (s t : State) : Prop
  | appends (h : OnlyAppends s t)
  | rejects (hi : i = .poll) (hlog : t.hostLog = s.hostLog ++ [.crcReject])
      (h : OnlyAppends { s with badCrcCount := s.badCrcCount + 1 } t)
  | fails (hi : i = .flashStep) (hf : s.feState = .startupCheck ∨ s.feState = .selfHeal ∧ s.feOp = .finish)
      (h : OnlyAppends { s with flashErr := true } t)
  | shifts (hi : i = .uartShiftOut) (b : Byte) (rest : Bytes) (hfifo : s.uartFifo = b :: rest)
      (h : OnlyAppends { s with wireOut := s.wireOut ++ [b] } t)
  | resets (hi : InstrResets i) (h : OnlyAppends { s with badCrcCount := 0, flashErr := false } t)

theorem execPoll_records {s t : State} (h : exec .poll s = .next t) : RecordOutcome .poll s t := by
  by_cases hp : PollEnabled s
  · cases execPoll_outcome hp h with
    | waits => exact .appends { OnlyAppends.refl s with }
    | sends => exact .appends { OnlyAppends.refl s with }
    | resumes => exact .appends { OnlyAppends.refl s with }
    | drops => exact .appends { OnlyAppends.emit _ s with }
    | rejects =>
      exact .rejects rfl rfl { OnlyAppends.emit _ { s with badCrcCount := s.badCrcCount + 1 } with }
    | dispatches source cmd payload _ ht =>
      refine .appends (.trans ?_ ht.onlyAppends)
      exact { OnlyAppends.emit (.frame source cmd payload) s with }
  · rw [exec_poll_of_not_enabled hp] at h
    cases h
    exact .appends (.refl s)

theorem execRxByte_appends {b : Byte} {s t : State} (h : execRxByte b s = .next t) : OnlyAppends s t := by
  unfold execRxByte at h
  split at h
  · split at h
    · replace h := finish_next h
      unfold acceptByte at h
      split at h
      · obtain ⟨u, hu, h⟩ := bind_ok h
        cases bufStores_inv (bs := [b]) (by rw [bufStores, hu, ok_bind, bufStores])
        cases h
        exact { OnlyAppends.refl s with }
      · cases h
        exact { OnlyAppends.refl s with }
    · split at h <;> cases h <;> exact { OnlyAppends.refl s with }
  · cases h
    exact .refl s

theorem execTick_appends {s t : State} (h : execTick s = .next t) : OnlyAppends s t := by
  unfold execTick at h
  split at h <;> cases h <;> exact { OnlyAppends.refl s with }

theorem execTxReady_appends {s t : State} (h : execTxReady s = .next t) : OnlyAppends s t := by
  unfold execTxReady at h
  split at h
  · obtain ⟨b, -, h⟩ := bind_ok (finish_next h)
    obtain ⟨u, hu, h⟩ := bind_ok h
    unfold setTxIndex at hu
    split at hu <;> cases hu
    cases h
    unfold endTransmission
    split <;> exact { OnlyAppends.refl s with }
  · cases h
    exact .refl s

theorem execUartShiftOut_records {s t : State} (h : execUartShiftOut s = .next t) :
    RecordOutcome .uartShiftOut s t := by
  unfold execUartShiftOut at h
  split at h
  · cases h
    exact .appends (.refl s)
  · rename_i b rest hf
    cases h
    exact .shifts rfl b rest hf { OnlyAppends.refl { s with wireOut := s.wireOut ++ [b] } with }

theorem flashErase_appends {a : Nat} {s t : State} (h : flashErase a s = .ok t) : OnlyAppends s t := by
  obtain ⟨rfl, -⟩ := flashErase_inv h
  exact { OnlyAppends.refl s with }

theorem flashWriteWord_appends {a : Nat} {w : Word16} {s t : State} (h : flashWriteWord a w s = .ok t) :
    OnlyAppends s t := by
  obtain ⟨rfl, -⟩ := flashWriteWord_inv h
  exact { OnlyAppends.refl s with }

theorem setFeOff_appends {n : Nat} {s t : State} (h : setFeOff n s = .ok t) : OnlyAppends s t := by
  unfold setFeOff at h
  split at h <;> cases h
  exact { OnlyAppends.refl s with }

theorem setFeSeg_appends {n : Nat} {s t : State} (h : setFeSeg n s = .ok t) : OnlyAppends s t := by
  unfold setFeSeg at h
  split at h <;> cases h
  exact { OnlyAppends.refl s with }

theorem copyErase_appends {s t : State} (h : copyErase s = .ok t) : OnlyAppends s t := by
  obtain ⟨u, hu, h⟩ := bind_ok h
  cases h
  exact { flashErase_appends hu with }

theorem copyAdvance_appends {s t : State} (h : copyAdvance s = .ok t) : OnlyAppends s t := by
  unfold copyAdvance at h
  split at h
  · obtain ⟨u, hu, h⟩ := bind_ok h
    cases h
    exact { setFeSeg_appends hu with }
  · cases h
    exact .refl s

theorem copyWrite_appends {s t : State} (h : copyWrite s = .ok t) : OnlyAppends s t := by
  obtain ⟨w, -, h⟩ := bind_ok h
  obtain ⟨u, hu, h⟩ := bind_ok h
  obtain ⟨v, hv, h⟩ := bind_ok h
  have hword : OnlyAppends s u := by
    unfold copyWord at hu
    split at hu
    · cases hu
      exact .refl s
    · exact flashWriteWord_appends hu
  exact (hword.trans (setFeOff_appends hv)).trans (copyAdvance_appends h)

theorem blockErase_appends {s t : State} (h : blockErase s = .ok t) : OnlyAppends s t := by
  obtain ⟨u, hu, h⟩ := bind_ok h
  cases h
  exact { flashErase_appends hu with }

theorem blockWriteWord_appends {s t : State} (h : blockWriteWord s = .ok t) : OnlyAppends s t := by
  obtain ⟨lo, -, h⟩ := bind_ok h
  obtain ⟨hi, -, h⟩ := bind_ok h
  obtain ⟨u, hu, h⟩ := bind_ok h
  obtain ⟨v, hv, h⟩ := bind_ok h
  cases h
  exact { (flashWriteWord_appends hu).trans (setFeOff_appends hv) with }

theorem blockVerify_appends {s t : State} (h : blockVerify s = .ok t) : OnlyAppends s t := by
  obtain ⟨written, -, h⟩ := bind_ok h
  obtain ⟨sent, -, h⟩ := bind_ok h
  split at h <;>
  · obtain ⟨source, -, -, rfl⟩ := reply_inv h
    exact { OnlyAppends.refl s with }

theorem boot_appends (s : State) : OnlyAppends s (boot s) := { OnlyAppends.emit (.booted s.flashErr) s with }

theorem startupCheck_records {s t : State} (h : startupCheck s = .ok t) :
    OnlyAppends s t ∨ OnlyAppends { s with flashErr := true } t := by
  obtain ⟨pbad, -, h⟩ := bind_ok h
  obtain ⟨bbad, -, h⟩ := bind_ok h
  have hcheck := OnlyAppends.emit (.check pbad bbad) s
  match pbad, bbad with
  | true, false => cases h; exact .inl { hcheck with }
  | true, true =>
    cases h
    exact .inr (.trans { OnlyAppends.emit (.check true true) { s with flashErr := true } with } (boot_appends _))
  | false, true => cases h; exact .inl { hcheck with }
  | false, false => cases h; exact .inl (hcheck.trans (boot_appends _))

theorem selfHealFinish_records {s t : State} (h : selfHealFinish s = .ok t) :
    OnlyAppends s t ∨ OnlyAppends { s with flashErr := true } t := by
  obtain ⟨bad, -, h⟩ := bind_ok h
  cases bad with
  | true => cases h; exact .inr (boot_appends _)
  | false => cases h; exact .inl (boot_appends s)

/-- The image checks alone can set `flash_err` (44 R206, R212). -/
theorem RecordOutcome.of_check {s t : State} (hf : s.feState = .startupCheck ∨ s.feState = .selfHeal ∧ s.feOp = .finish)
    (h : OnlyAppends s t ∨ OnlyAppends { s with flashErr := true } t) : RecordOutcome .flashStep s t :=
  h.elim .appends (.fails rfl hf)

theorem execFlashStep_records {s t : State} (h : execFlashStep s = .next t) : RecordOutcome .flashStep s t := by
  unfold execFlashStep at h
  split at h
  case h_1 hf => exact .of_check (.inl hf) (startupCheck_records (finish_next h))
  case h_2 => exact .appends (copyErase_appends (finish_next h))
  case h_3 => exact .appends (copyWrite_appends (finish_next h))
  case h_4 hf hop => exact .of_check (.inr ⟨hf, hop⟩) (selfHealFinish_records (finish_next h))
  case h_5 => cases h
  case h_6 => exact .appends (copyErase_appends (finish_next h))
  case h_7 => exact .appends (copyWrite_appends (finish_next h))
  case h_8 => cases h; exact .appends { OnlyAppends.refl s with }
  case h_9 => cases h
  case h_10 => exact .appends (blockErase_appends (finish_next h))
  case h_11 => exact .appends (blockWriteWord_appends (finish_next h))
  case h_12 => exact .appends (blockVerify_appends (finish_next h))
  case h_13 => cases h
  case h_14 => cases h; exact .appends (.refl s)
  case h_15 => cases h; exact .appends (.refl s)

theorem execReset_records {c : ResetSource} {s t : State} (h : execReset c s = .next t) :
    RecordOutcome (.reset c) s t := by
  unfold execReset at h
  split at h
  · cases h
    exact .resets (.inl ⟨c, rfl⟩) { OnlyAppends.emit _ { s with badCrcCount := 0, flashErr := false } with }
  · cases h
    exact .appends (.refl s)

theorem execPowerFail_records {d : Bytes} {s t : State} (h : execPowerFail d s = .next t) :
    RecordOutcome (.powerFail d) s t := by
  obtain ⟨u, hu, h⟩ := bind_ok (finish_next h)
  obtain ⟨rfl, -⟩ := flashStores_inv hu
  cases h
  exact .resets (.inr ⟨d, rfl⟩)
    { OnlyAppends.emit (.reset .powerFail) { s with badCrcCount := 0, flashErr := false } with }

/-- An instruction is a frame command or an event. -/
theorem frame_or_event (c : Config) (i : Instr) : (i.frame c).isSome = true ∨ ∃ e : Event, i = e.instr := by
  cases i with
  | rxByte b => exact .inr ⟨.rxByte b, rfl⟩
  | tick => exact .inr ⟨.tick, rfl⟩
  | poll => exact .inr ⟨.poll, rfl⟩
  | txReady => exact .inr ⟨.txReady, rfl⟩
  | uartShiftOut => exact .inr ⟨.uartShiftOut, rfl⟩
  | flashStep => exact .inr ⟨.flashStep, rfl⟩
  | reset c => exact .inr ⟨.reset c, rfl⟩
  | powerFail d => exact .inr ⟨.powerFail d, rfl⟩
  | degradedRead | degradedWriteThenRead | emptyPayload | readFwId | readCompiler | readTarget | readControlStatus
  | writeControlStatus | writeThenReadControlStatus | writeFwBlock | writeReflash | unknownPair => exact .inl rfl

/-- A frame command means what the router makes of it (43 R170). -/
theorem exec_eq_route {i : Instr} {s : State} (hi : (i.frame s.cfg).isSome = true) : exec i s = route i s := by
  cases i with
  | rxByte | tick | poll | txReady | uartShiftOut | flashStep | reset | powerFail => cases hi
  | degradedRead | degradedWriteThenRead | emptyPayload | readFwId | readCompiler | readTarget | readControlStatus
  | writeControlStatus | writeThenReadControlStatus | writeFwBlock | writeReflash | unknownPair => rfl

theorem exec_records {i : Instr} {s t : State} (h : exec i s = .next t) : RecordOutcome i s t := by
  rcases frame_or_event s.cfg i with hi | ⟨e, rfl⟩
  · rw [exec_eq_route hi] at h
    exact .appends (route_exit h).onlyAppends
  · cases e with
    | rxByte b => exact .appends (execRxByte_appends h)
    | tick => exact .appends (execTick_appends h)
    | poll => exact execPoll_records h
    | txReady => exact .appends (execTxReady_appends h)
    | uartShiftOut => exact execUartShiftOut_records h
    | flashStep => exact execFlashStep_records h
    | reset c => exact execReset_records h
    | powerFail d => exact execPowerFail_records h

/-! ### What a POLL keeps -/

/-- The elements a POLL never changes: configuration, UART, bus history, boot flag, `flash_err`, script and flash. -/
structure KeepsOutside (s t : State) : Prop where
  cfg : t.cfg = s.cfg
  uart_fifo : t.uartFifo = s.uartFifo
  wire_out : t.wireOut = s.wireOut
  booted : t.booted = s.booted
  flash_err : t.flashErr = s.flashErr
  script : t.script = s.script
  flash : t.flash = s.flash

theorem RouterExit.keepsOutside {s t : State} (h : RouterExit s t) : KeepsOutside s t := by
  cases h <;> exact ⟨rfl, rfl, rfl, rfl, rfl, rfl, rfl⟩

theorem PollOutcome.keepsOutside {s t : State} (h : PollOutcome s t) : KeepsOutside s t := by
  cases h with
  | dispatches source cmd payload _ ht => exact { ht.keepsOutside with }
  | waits | sends | resumes | drops | rejects => exact ⟨rfl, rfl, rfl, rfl, rfl, rfl, rfl⟩

theorem RouterExit.pollResult {s t : State} (h : RouterExit s t) : t.pollResult = s.pollResult := by
  cases h <;> rfl

/-- A composed reply writes below its last wire byte only: `tx_size` counts START, which is not in `buf` (42 R147). -/
theorem find?_replied_above (s : State) (code source : Byte) (payload : Bytes) {a : Nat}
    (ha : (replied code source payload s).txSize - 1 ≤ a) :
    (replied code source payload s).buf.find? a = s.buf.find? a := by
  rw [replied_buf, Memory.find?_storeAll_other]
  rw [replied_txSize] at ha
  rw [frameImage_length]
  omega

theorem RouterExit.buf {s t : State} (h : RouterExit s t) {a : Nat}
    (ha : t.txPhase ≠ .pre ∨ s.txPhase = .pre ∨ t.txSize - 1 ≤ a) (hidle : s.txPhase = .idle) :
    t.buf.find? a = s.buf.find? a := by
  cases h with
  | replied => exact find?_replied_above _ _ _ _ (by simpa [hidle] using ha)
  | started | reflashing => rfl

theorem PollOutcome.buf {s t : State} (h : PollOutcome s t) {a : Nat}
    (ha : t.txPhase ≠ .pre ∨ s.txPhase = .pre ∨ t.txSize - 1 ≤ a) : t.buf.find? a = s.buf.find? a := by
  cases h with
  | rejects source hidle => exact find?_replied_above _ _ _ _ (by simpa [hidle] using ha)
  | dispatches source cmd payload hidle ht => exact ht.buf ha hidle
  | waits | sends | resumes | drops => rfl

/-- `poll_result` is set with the record FRAME, which is the first that a POLL appends (41 R131). -/
theorem PollOutcome.pollResult_iff {s t : State} (h : PollOutcome s t) :
    t.pollResult = true ↔ ∃ source cmd payload rest, t.hostLog = s.hostLog ++ .frame source cmd payload :: rest := by
  cases h with
  | dispatches source cmd payload _ ht =>
    obtain ⟨new, hlog⟩ := ht.onlyAppends.host_log
    exact iff_of_true ht.pollResult ⟨source, cmd, payload, new, by rw [hlog]; simp⟩
  | drops hr =>
    rcases hr with rfl | ⟨reason, rfl⟩ <;> simp
  | waits | sends | resumes | rejects => simp

/-! ### Snapshots -/

theorem drawSnapshot_queued {s : State} {snap : Bytes} {queue : List Bytes} (hq : s.snapQueue = snap :: queue)
    (hlen : snap.length = s.cfg.statusSize) : drawSnapshot s = (snap, { s with snapQueue := queue }) := by
  simp only [drawSnapshot, hq, List.headD_cons, List.tail_cons, ← hlen, drawBytes_given]

/-- A snapshot is drawn, recorded and sent under an ACK (43 R176). -/
theorem snapshotReply_served {s : State} {source : Byte} (h : Served s source) :
    snapshotReply s =
      .ok (replied s.cfg.ackCode source (drawSnapshot s).1 (emit (.snap (drawSnapshot s).1) (drawSnapshot s).2)) := by
  obtain ⟨ha, hs⟩ := h
  obtain ⟨-, -, -, -, hstatus, -⟩ := ha.2.1
  have hlen : (drawSnapshot s).1.length = s.cfg.statusSize := readStatusSnapshot_length s
  exact reply_ok (s := (readStatusSnapshot s).2) (canReply_of_admitted ha (by simp [hs]) (hlen ▸ hstatus)) hs

theorem snapshotReply_queued {s : State} {source : Byte} (h : Served s source) {snap : Bytes} {queue : List Bytes}
    (hq : s.snapQueue = snap :: queue) (hlen : snap.length = s.cfg.statusSize) :
    snapshotReply s = .ok (replied s.cfg.ackCode source snap (emit (.snap snap) { s with snapQueue := queue })) := by
  rw [snapshotReply_served h, drawSnapshot_queued hq hlen]

theorem decodePair_readControlStatus {c : Config} (h : c.CodesOk) (rest : Bytes) :
    decodePair c c.cmdRead c.locControlStatus rest = .readControlStatus rest := by
  obtain ⟨-, hloc, -⟩ := h
  simp only [List.nodup_cons, List.mem_cons, not_or] at hloc
  obtain ⟨⟨-, -, hfw, -⟩, ⟨-, hcompiler, -⟩, ⟨htarget, -⟩, -⟩ := hloc
  simp [decodePair, Ne.symm hfw, Ne.symm hcompiler, Ne.symm htarget]

theorem decodePair_writeThenRead {c : Config} (h : c.CodesOk) (rest : Bytes) :
    decodePair c c.cmdWriteThenRead c.locControlStatus rest = .writeThenReadControlStatus rest := by
  obtain ⟨hcmd, -, -⟩ := h
  simp only [List.nodup_cons, List.mem_cons, not_or] at hcmd
  obtain ⟨⟨-, hread, -⟩, ⟨hwrite, -⟩, -⟩ := hcmd
  simp [decodePair, Ne.symm hread, Ne.symm hwrite]

/-! ### The obligations on the router, POLL, the counters and the histories -/

/-- Settles O12, from the composition of a snapshot's reply. -/
theorem readControlStatusReturnsASnapshot : Obligations.ReadControlStatusReturnsASnapshot := by
  intro s source extra h
  refine ⟨?_, ⟨(drawSnapshot s).1, (drawSnapshot s).2.draws, readStatusSnapshot_length s, ?_⟩,
    fun snap queue hq hlen => ?_⟩
  · simp [decodeCommand, decodePair_readControlStatus h.1.1]
  · exact congrArg finish (snapshotReply_served h)
  · exact congrArg finish (snapshotReply_queued h hq hlen)

/-- Settles O14: the snapshot is drawn in the state that already holds the record CTRL. -/
theorem writeThenReadAppliesThenSnapshots : Obligations.WriteThenReadAppliesThenSnapshots := by
  intro s source ctrl h
  have hctrl : Served (emit (.ctrl ctrl) s) source := h
  have hlog (snap : Bytes) :
      s.hostLog ++ [.ctrl ctrl, .snap snap] = (s.hostLog ++ [.ctrl ctrl]) ++ [.snap snap] := by simp
  refine ⟨?_, ⟨(drawSnapshot s).1, (drawSnapshot s).2.draws, readStatusSnapshot_length s, ?_⟩,
    fun snap queue hq hlen => ?_⟩
  · simp [decodeCommand, decodePair_writeThenRead h.1.1]
  · rw [hlog]
    exact congrArg finish (snapshotReply_served hctrl)
  · rw [hlog]
    exact congrArg finish (snapshotReply_queued hctrl hq hlen)

/-- Settles O29, by the outcomes of an enabled POLL. -/
theorem pollReportsFramesAndKeepsTheRest : Obligations.PollReportsFramesAndKeepsTheRest := by
  intro s t hp h
  have houtcome := execPoll_outcome hp h
  obtain ⟨hcfg, hfifo, hwire, hbooted, herr, hscript, hflash⟩ := houtcome.keepsOutside
  exact ⟨houtcome.pollResult_iff, ⟨hcfg, hfifo, hwire, hbooted, herr, hscript⟩, flashByte_congr hflash hcfg,
    fun _ ha => houtcome.buf ha⟩

theorem execPoll_badCrc {s : State} {frame : Bytes} (ha : s.cfg.Admitted) (h : FrameArrived s frame)
    (hend : frame.getD (frame.length - 1) 0 = s.cfg.endByte) (hdev : frame.getD 1 0 = s.cfg.devAddr)
    (hcrc : s.cfg.crcIsInvalid frame (frame.length - 3) = true) :
    ∃ t, exec .poll s = .next t ∧ t.badCrcCount = s.badCrcCount + 1 := by
  have hpoll := execPoll_of_frame h
  obtain ⟨-, -, -, hholds, hlen, -, h7⟩ := h
  have hdecode : decodeFrame s.cfg s.flashErr frame = .error .badCrc := by
    rw [decodeFrame_of_complete h7 hlen, if_neg (not_not.2 hend), if_neg (not_not.2 hdev), if_pos hcrc]
  have hsource : s.buf.find? 0 = some (frame[0]'(by omega)) := hholds 0 (by omega)
  rw [hpoll, answerFrame]
  simp only [hdecode]
  refine ⟨_, congrArg finish (reply_ok (s := emit .crcReject
    { s with pollResult := false, rxIe := false, badCrcCount := s.badCrcCount + 1 }) (payload := [])
    (canReply_of_admitted ha (by simp [hsource]) (by decide)) hsource), rfl⟩

/-- Settles O31: the records each instruction leaves give the first part, and the frame check the second. -/
theorem badCrcCountCountsRejectedFrames : Obligations.BadCrcCountCountsRejectedFrames := by
  refine ⟨fun s t i h => ?_, fun s frame ha h hend hdev hcrc => ?_⟩
  · cases exec_records h with
    | appends k | fails _ _ k | shifts _ _ _ _ k => exact .inl k.bad_crc_count
    | rejects hi hlog k => exact .inr (.inl ⟨hi, k.bad_crc_count, hlog⟩)
    | resets hi k => exact .inr (.inr ⟨hi, k.bad_crc_count⟩)
  · obtain ⟨t, ht, hcount⟩ := execPoll_badCrc ha h hend hdev hcrc
    exact ⟨t, ht, by rw [hcount, BitVec.toNat_add]; rfl⟩

theorem RecordOutcome.sets_flashErr {i : Instr} {s t : State} (h : RecordOutcome i s t) (h0 : s.flashErr = false)
    (h1 : t.flashErr = true) :
    i = .flashStep ∧ (s.feState = .startupCheck ∨ s.feState = .selfHeal ∧ s.feOp = .finish) := by
  cases h with
  | fails hi hf _ => exact ⟨hi, hf⟩
  | appends k | rejects _ _ k | shifts _ _ _ _ k | resets _ k => simp [k.flash_err, h0] at h1

theorem RecordOutcome.clears_flashErr {i : Instr} {s t : State} (h : RecordOutcome i s t) (h1 : s.flashErr = true)
    (h0 : t.flashErr = false) : InstrResets i := by
  cases h with
  | resets hi _ => exact hi
  | appends k | rejects _ _ k | fails _ _ k | shifts _ _ _ _ k => simp [k.flash_err, h1] at h0

theorem RecordOutcome.host_log {i : Instr} {s t : State} (h : RecordOutcome i s t) :
    ∃ new, t.hostLog = s.hostLog ++ new := by
  cases h with
  | appends k | rejects _ _ k | fails _ _ k | shifts _ _ _ _ k | resets _ k => exact k.host_log

theorem RecordOutcome.wire_out {i : Instr} {s t : State} (h : RecordOutcome i s t) :
    t.wireOut = s.wireOut ∨
      i = .uartShiftOut ∧ ∃ b rest, s.uartFifo = b :: rest ∧ t.wireOut = s.wireOut ++ [b] := by
  cases h with
  | shifts hi b rest hfifo k => exact .inr ⟨hi, b, rest, hfifo, k.wire_out⟩
  | appends k | rejects _ _ k | fails _ _ k | resets _ k => exact .inl k.wire_out

/-- Settles O32, from the records each instruction leaves. -/
theorem flashErrIsStickyAndHistoriesGrow : Obligations.FlashErrIsStickyAndHistoriesGrow := fun _ _ _ h =>
  have k := exec_records h
  ⟨k.sets_flashErr, k.clears_flashErr, k.host_log, k.wire_out⟩

/-! ### The flags and the register view -/

theorem gie_eq_true_iff (s : State) :
    gie s = true ↔ s.booted = true ∧ s.feState ≠ .reflashing ∧ s.feState ≠ .rebooted := by
  simp [gie, and_assoc]

/-- Settles O24: each of the three events asks for `gie`. -/
theorem interruptsAreMaskedWhileGieIsClear : Obligations.InterruptsAreMaskedWhileGieIsClear := by
  intro s
  refine ⟨gie_eq_true_iff s, fun hg => ⟨fun b => if_neg ?_, if_neg ?_, ?_⟩⟩
  · simp [hg]
  · simp [hg]
  · simp [TxReadyEnabled, hg]

theorem registerField_toNat {width value : Nat} (hw : width ≤ 16) (hv : value < 2 ^ width) :
    (registerField width value).toNat = value := by
  rw [registerField, BitVec.toNat_setWidth_of_le hw, BitVec.toNat_ofNat, Nat.mod_eq_of_lt hv]

theorem readRegister_above (s : State) {index : Nat} (h : index > 0x0B) : readRegister s index = 0 := by
  obtain ⟨k, rfl⟩ := Nat.exists_eq_add_of_le h
  rw [Nat.add_comm]
  rfl

/-- The fields of STATUS in the order of 10 R34. The width is written as the sum of the fields' widths, which is how the
concatenation is read field by field. -/
theorem statusRegister_layout {s : State} {w : BitVec (2 + 1 + 2 + 3 + 1 + 1 + 1 + 2 + 1 + 1 + 1)}
    (hw : w = statusRegister s) :
    (w.getLsbD 0 = s.rxActive ∧ w.getLsbD 1 = s.rxIe ∧ w.getLsbD 2 = s.txIe ∧ w.getLsbD 5 = de s ∧
      w.getLsbD 6 = s.flashErr ∧ w.getLsbD 7 = s.booted ∧ w.getLsbD 13 = gie s) ∧
    w.extractLsb' 3 2 = BitVec.ofNat 2 s.txPhase.number ∧ w.extractLsb' 8 3 = BitVec.ofNat 3 s.feState.number ∧
      w.extractLsb' 11 2 = BitVec.ofNat 2 s.feOp.number ∧ w.extractLsb' 14 2 = 0 := by
  subst hw
  simp only [statusRegister, BitVec.getLsbD_append, BitVec.extractLsb'_append_eq_ite]
  simp

theorem statusRegister_bits (s : State) :
    (statusRegister s).getLsbD 0 = s.rxActive ∧ (statusRegister s).getLsbD 1 = s.rxIe ∧
      (statusRegister s).getLsbD 2 = s.txIe ∧ (statusRegister s).getLsbD 5 = de s ∧
      (statusRegister s).getLsbD 6 = s.flashErr ∧ (statusRegister s).getLsbD 7 = s.booted ∧
      (statusRegister s).getLsbD 13 = gie s := (statusRegister_layout rfl).1

/-- The numbers of the three enumerated elements fit their fields (10 R22, R29). -/
theorem statusRegister_fields (s : State) :
    ((statusRegister s).extractLsb' 3 2).toNat = s.txPhase.number ∧
      ((statusRegister s).extractLsb' 8 3).toNat = s.feState.number ∧
      ((statusRegister s).extractLsb' 11 2).toNat = s.feOp.number ∧ (statusRegister s).extractLsb' 14 2 = 0 := by
  obtain ⟨-, hphase, hstate, hop, hzero⟩ := statusRegister_layout (s := s) rfl
  refine ⟨(congrArg BitVec.toNat hphase).trans ?_, (congrArg BitVec.toNat hstate).trans ?_,
    (congrArg BitVec.toNat hop).trans ?_, hzero⟩
  · cases s.txPhase <;> rfl
  · cases s.feState <;> rfl
  · cases s.feOp <;> rfl

/-- Settles O59: STATUS field by field, and each numbered register shows a number that fits its field. -/
theorem registerViewShowsTheState : Obligations.RegisterViewShowsTheState := by
  intro s
  obtain ⟨hact, hrxie, htxie, hde, herr, hbooted, hgie⟩ := statusRegister_bits s
  obtain ⟨hphase, hstate, hop, hzero⟩ := statusRegister_fields s
  refine ⟨⟨hact, hrxie, htxie, hphase, hde, herr, hbooted, hstate, hop, hgie, hzero⟩, ?_, fun _ => readRegister_above s,
    fun _ _ => rfl⟩
  exact ⟨registerField_toNat (by decide), registerField_toNat (by decide), registerField_toNat (by decide),
    registerField_toNat (by decide), registerField_toNat (by decide), rfl, registerField_toNat (by decide),
    registerField_toNat (by decide), rfl, registerField_toNat (by decide) s.bwLen.isLt, registerField_toNat (by decide)⟩

end Sys2Proof.Machine
end

section
/-! Proofs for 20_memory: the flash primitives byte by byte, and the frame of the twelve frame commands, by what a row's
host calls change before its reply is composed. -/

namespace Sys2Proof.Machine

/-! ### Programming -/

theorem programByte_and {c : Config} (h : c.flashProgram = .and) (old new : Byte) :
    programByte c old new = old &&& new := by
  rw [programByte, h]

theorem programByte_overwrite {c : Config} (h : c.flashProgram = .overwrite) (old new : Byte) :
    programByte c old new = new := by
  rw [programByte, h]

/-- Programming a byte a second time changes nothing (20 R58). -/
theorem programByte_idem (c : Config) (old new : Byte) :
    programByte c (programByte c old new) new = programByte c old new := by
  cases h : c.flashProgram with
  | and => simp only [programByte_and h, BitVec.and_assoc, BitVec.and_self]
  | overwrite => simp only [programByte_overwrite h]

/-- A byte with every bit set takes the new value under either program rule. -/
theorem programByte_ones (c : Config) (new : Byte) : programByte c 0xFF new = new := by
  cases h : c.flashProgram with
  | and => exact (programByte_and h _ _).trans (BitVec.allOnes_and (x := new))
  | overwrite => exact programByte_overwrite h _ _

/-- A word's low and high byte, read back in the order of 20 R53, are the word. -/
theorem le16_lo8_hi8 (w : Word16) : le16 (lo8 w) (hi8 w) = w := by
  rw [le16, lo8, hi8, BitVec.extractLsb'_append_extractLsb'_eq_extractLsb' (by rfl)]
  exact BitVec.extractLsb'_eq_self

/-- The state a word write leaves (20 R58). -/
def withWord (s : State) (a : Nat) (w : Word16) : State :=
  { s with flash := s.flash.storeAll (some s.cfg.erasedByte) a (programmed s a w) }

theorem flashWriteWord_withWord {s : State} {a : Nat} {w : Word16} (he : a % 2 = 0) (h : InFlash s a 2) :
    flashWriteWord a w s = .ok (withWord s a w) := flashWriteWord_ok he h

theorem flashByte_withWord_low (s : State) (a : Nat) (w : Word16) :
    flashByte (withWord s a w) a = programByte s.cfg (flashByte s a) (lo8 w) := by
  rw [withWord, flashByte_storeAll]
  simp

theorem flashByte_withWord_high (s : State) (a : Nat) (w : Word16) :
    flashByte (withWord s a w) (a + 1) = programByte s.cfg (flashByte s (a + 1)) (hi8 w) := by
  rw [withWord, flashByte_storeAll]
  simp

theorem flashByte_withWord_other (s : State) {a x : Nat} (w : Word16) (h0 : x ≠ a) (h1 : x ≠ a + 1) :
    flashByte (withWord s a w) x = flashByte s x := by
  rw [withWord, flashByte_storeAll, if_neg]
  simp only [List.length_cons, List.length_nil]
  omega

/-- A word programmed a second time changes no byte (20 R58). -/
theorem flashByte_withWord_twice (s : State) (a : Nat) (w : Word16) (x : Nat) :
    flashByte (withWord (withWord s a w) a w) x = flashByte (withWord s a w) x := by
  by_cases h0 : x = a
  · subst h0
    rw [flashByte_withWord_low, flashByte_withWord_low]
    exact programByte_idem _ _ _
  by_cases h1 : x = a + 1
  · subst h1
    rw [flashByte_withWord_high, flashByte_withWord_high]
    exact programByte_idem _ _ _
  exact flashByte_withWord_other _ w h0 h1

/-- Programming takes the new word as it is where the rule overwrites, and where every bit was set. -/
theorem flashWord_withWord {s : State} {a : Nat} (w : Word16)
    (h : s.cfg.flashProgram = .overwrite ∨ flashByte s a = 0xFF ∧ flashByte s (a + 1) = 0xFF) :
    flashWord (withWord s a w) a = w := by
  rw [flashWord, flashByte_withWord_low, flashByte_withWord_high]
  rcases h with hp | ⟨h0, h1⟩
  · rw [programByte_overwrite hp, programByte_overwrite hp, le16_lo8_hi8]
  · rw [h0, h1, programByte_ones, programByte_ones, le16_lo8_hi8]

/-! ### The flash primitives -/

/-- Clearing a range a second time removes no cell (20 R57). -/
theorem Memory.clear_clear (a n : Nat) (m : Memory) : (m.clear a n).clear a n = m.clear a n := by
  simp [Memory.clear]

/-- Settles O39: each primitive's result in closed form, then its bytes; the second erase or write meets the first's. -/
theorem flashPrimitivesActOnTheirBytes : Obligations.FlashPrimitivesActOnTheirBytes := by
  refine ⟨fun s a hin => ?erase, fun s a w heven hin => ?write, fun s a w hodd => ?odd, fun s a n hlo hhi => ?read,
    fun s a n hout => if_neg hout⟩
  case erase =>
    exact ⟨_, flashErase_ok hin, rfl, flashByte_clear s _ _, _, flashErase_ok hin,
      flashByte_congr (Memory.clear_clear _ _ _) rfl⟩
  case write =>
    refine ⟨_, flashWriteWord_withWord heven hin, rfl, fun hand => ⟨?_, ?_⟩, fun hfree => flashWord_withWord w ?_,
      fun x => flashByte_withWord_other s w, _, flashWriteWord_withWord heven hin, flashByte_withWord_twice s a w⟩
    · exact (flashByte_withWord_low s a w).trans (programByte_and hand _ _)
    · exact (flashByte_withWord_high s a w).trans (programByte_and hand _ _)
    · exact hfree.imp_right fun ⟨hff, h0, h1⟩ => ⟨h0.trans hff, h1.trans hff⟩
  case odd => exact if_neg (by omega)
  case read =>
    refine ⟨_, memRead_ok ⟨hlo, hhi⟩, flashBytes_length s a n, fun k hk => ?_⟩
    rw [List.getD_eq_getElem _ _ (by simpa using hk), flashBytes_getElem]

/-! ### The frame commands -/

/-- The state whose reply a row composes: the host calls of 43 R171 and R176 to R178 have been made. -/
def afterHostCalls (i : Instr) (s : State) : State :=
  match i with
  | .degradedWriteThenRead payload => degradedControls payload s
  | .readControlStatus _ => (readStatusSnapshot s).2
  | .writeControlStatus ctrl => emit (.ctrl ctrl) s
  | .writeThenReadControlStatus ctrl => (readStatusSnapshot (emit (.ctrl ctrl) s)).2
  | _ => s

theorem degradedControls_records (payload : Bytes) (s : State) :
    ∃ records, degradedControls payload s = { s with hostLog := records } := by
  unfold degradedControls
  split
  · split <;> exact ⟨_, rfl⟩
  · exact ⟨_, rfl⟩

/-- Host calls change the records, the queued snapshots and the count of draws. -/
theorem afterHostCalls_eq (i : Instr) (s : State) :
    ∃ records queue draws,
      afterHostCalls i s = { s with hostLog := records, snapQueue := queue, draws := draws } := by
  cases i with
  | degradedWriteThenRead payload =>
    obtain ⟨records, h⟩ := degradedControls_records payload s
    exact ⟨records, _, _, h⟩
  | _ => exact ⟨_, _, _, rfl⟩

/-- Only the rows that read the control and status structure draw a snapshot (43 R176, R178). -/
theorem afterHostCalls_snapshots (i : Instr) (s : State) :
    (∃ e, i = .readControlStatus e) ∨ (∃ c, i = .writeThenReadControlStatus c) ∨
      (afterHostCalls i s).snapQueue = s.snapQueue ∧ (afterHostCalls i s).draws = s.draws := by
  cases i with
  | readControlStatus extra => exact .inl ⟨extra, rfl⟩
  | writeThenReadControlStatus ctrl => exact .inr (.inl ⟨ctrl, rfl⟩)
  | degradedWriteThenRead payload =>
    obtain ⟨records, h⟩ := degradedControls_records payload s
    exact .inr (.inr (by simp [afterHostCalls, h]))
  | _ => exact .inr (.inr ⟨rfl, rfl⟩)

/-- Only the rows that call the host record anything. -/
theorem afterHostCalls_hostLog (i : Instr) (s : State) :
    (∃ e, i = .readControlStatus e) ∨ (∃ c, i = .writeThenReadControlStatus c) ∨ (∃ c, i = .writeControlStatus c) ∨
      (∃ p, i = .degradedWriteThenRead p) ∨ (afterHostCalls i s).hostLog = s.hostLog := by
  cases i with
  | readControlStatus extra => exact .inl ⟨extra, rfl⟩
  | writeThenReadControlStatus ctrl => exact .inr (.inl ⟨ctrl, rfl⟩)
  | writeControlStatus ctrl => exact .inr (.inr (.inl ⟨ctrl, rfl⟩))
  | degradedWriteThenRead payload => exact .inr (.inr (.inr (.inl ⟨payload, rfl⟩)))
  | _ => exact .inr (.inr (.inr (.inr rfl)))

/-- A row composes a reply after its host calls; only a firmware block and the reflash trigger can do without one, and
they start the engine instead (43 R179, R180). -/
theorem route_replies_or_starts {i : Instr} {s t : State} (h : route i s = .next t) :
    (∃ code payload, reply code payload (afterHostCalls i s) = .ok t) ∨
      (∃ b addr len, i = .writeFwBlock b ∧ t = startBlockWrite addr len s) ∨
      (∃ e, i = .writeReflash e ∧ t = enterCopy .reflashing s) := by
  cases i with
  | writeFwBlock block =>
    replace h : execWriteFwBlock block s = .next t := h
    unfold execWriteFwBlock at h
    split at h
    · exact .inl ⟨_, _, finish_next h⟩
    · split at h
      · cases h
        exact .inr (.inl ⟨block, _, _, rfl, rfl⟩)
      · exact .inl ⟨_, _, finish_next h⟩
  | writeReflash extra =>
    obtain ⟨bad, -, hb⟩ := bind_ok (finish_next h)
    cases bad with
    | true => exact .inl ⟨_, _, hb⟩
    | false => cases hb; exact .inr (.inr ⟨extra, rfl, rfl⟩)
  | rxByte | tick | poll | txReady | uartShiftOut | flashStep | reset | powerFail => cases h
  | degradedRead | degradedWriteThenRead | emptyPayload | readFwId | readCompiler | readTarget | readControlStatus
  | writeControlStatus | writeThenReadControlStatus | unknownPair => exact .inl ⟨_, _, finish_next h⟩

/-- The router leaves the receiver, `tx_ie` and the count of rejected frames alone (43 R170). -/
theorem RouterExit.receiver {s t : State} (h : RouterExit s t) :
    t.rxActive = s.rxActive ∧ t.rxCursor = s.rxCursor ∧ t.rxIe = s.rxIe ∧ t.gapTimer = s.gapTimer ∧ t.txIe = s.txIe := by
  cases h <;> exact ⟨rfl, rfl, rfl, rfl, rfl⟩

/-- Settles O18: the elements no exit of the router changes, then the reply or the engine's start. -/
theorem frameCommandsLeaveTheRestUnchanged : Obligations.FrameCommandsLeaveTheRestUnchanged := by
  intro i s t hi h
  rw [exec_eq_route hi] at h
  have hexit := route_exit h
  obtain ⟨hcfg, hfifo, hwire, hbooted, herr, hscript, hflash⟩ := hexit.keepsOutside
  obtain ⟨hact, hcursor, hrxie, hgap, htxie⟩ := hexit.receiver
  refine ⟨⟨hcfg, hact, hcursor, hrxie, hgap, htxie, hfifo, hexit.onlyAppends.bad_crc_count, herr, hbooted,
    hexit.pollResult, hwire, hscript⟩, flashByte_congr hflash hcfg, ?_⟩
  rcases route_replies_or_starts h with ⟨code, payload, hreply⟩ | ⟨b, addr, len, rfl, rfl⟩ | ⟨e, rfl, rfl⟩
  · obtain ⟨source, -, -, rfl⟩ := reply_inv hreply
    obtain ⟨records, queue, draws, hhost⟩ := afterHostCalls_eq i s
    refine ⟨.inr ⟨rfl, fun a ha => ?_, ?_⟩, afterHostCalls_snapshots i s, afterHostCalls_hostLog i s⟩
    · rw [find?_replied_above _ _ _ _ ha, hhost]
    · simp [hhost]
  · exact ⟨.inl ⟨fun _ => rfl, rfl, rfl, rfl, rfl, .inl ⟨b, rfl⟩⟩, afterHostCalls_snapshots (.writeFwBlock b) s,
      afterHostCalls_hostLog (.writeFwBlock b) s⟩
  · exact ⟨.inl ⟨fun _ => rfl, rfl, rfl, rfl, rfl, .inr ⟨e, rfl⟩⟩, afterHostCalls_snapshots (.writeReflash e) s,
      afterHostCalls_hostLog (.writeReflash e) s⟩

end Sys2Proof.Machine
end

section
/-! Proofs for 30_encoding: the frame's layout and the decoder against it in both directions, the opcode map row by row,
script lines word by word, and the reception of a frame byte by byte. -/

namespace Sys2Proof.Machine

/-! ### The bytes of a frame -/

theorem lo8_le16 (b0 b1 : Byte) : lo8 (le16 b0 b1) = b0 := by
  rw [lo8, le16, BitVec.extractLsb'_append_eq_right]

theorem hi8_le16 (b0 b1 : Byte) : hi8 (le16 b0 b1) = b1 := by
  rw [hi8, le16, BitVec.extractLsb'_append_eq_left]

/-- The bytes of a frame that its CRC covers: the header and the payload (30 R86). -/
def coveredBytes (source target cmd : Byte) (payload : Bytes) : Bytes :=
  [source, target, cmd, BitVec.ofNat 8 (payload.length + 6)] ++ payload

@[simp] theorem coveredBytes_length (source target cmd : Byte) (payload : Bytes) :
    (coveredBytes source target cmd payload).length = payload.length + 4 := rfl

theorem frameImage_eq (c : Config) (source target cmd : Byte) (payload : Bytes) :
    frameImage c source target cmd payload =
      coveredBytes source target cmd payload ++
        [lo8 (c.crc (coveredBytes source target cmd payload)), hi8 (c.crc (coveredBytes source target cmd payload)),
          c.endByte] :=
  List.append_assoc _ _ _

theorem take_frameImage (c : Config) (source target cmd : Byte) (payload : Bytes) :
    (frameImage c source target cmd payload).take (payload.length + 4) = coveredBytes source target cmd payload := by
  rw [frameImage_eq, List.take_left' (coveredBytes_length ..)]

/-- The three bytes of a frame after those its CRC covers (30 R81, R86). -/
theorem frameImage_trailer (c : Config) (source target cmd : Byte) (payload : Bytes) :
    (frameImage c source target cmd payload).getD (payload.length + 4) 0 =
        lo8 (c.crc (coveredBytes source target cmd payload)) ∧
      (frameImage c source target cmd payload).getD (payload.length + 5) 0 =
        hi8 (c.crc (coveredBytes source target cmd payload)) ∧
      (frameImage c source target cmd payload).getD (payload.length + 6) 0 = c.endByte := by
  rw [frameImage_eq]
  refine ⟨?_, ?_, ?_⟩ <;> rw [List.getD_append_right _ _ _ _ (by simp)] <;> simp

/-- The length byte holds `P + 6` for every payload that fits (30 R82, R84). -/
theorem frameImage_length_byte (c : Config) (source target cmd : Byte) {payload : Bytes} (hn : payload.length ≤ 249) :
    ((frameImage c source target cmd payload).getD 3 0).toNat = payload.length + 6 := by
  show (BitVec.ofNat 8 (payload.length + 6)).toNat = _
  rw [BitVec.toNat_ofNat, Nat.mod_eq_of_lt (by omega)]

theorem frameImage_crc_valid (c : Config) (source target cmd : Byte) (payload : Bytes) :
    c.crcIsInvalid (frameImage c source target cmd payload) (payload.length + 4) = false := by
  obtain ⟨hlo, hhi, -⟩ := frameImage_trailer c source target cmd payload
  rw [Config.crcIsInvalid, hlo, hhi, take_frameImage, le16_lo8_hi8, bne_self_eq_false]

theorem frameImage_payload (c : Config) (source target cmd : Byte) (payload : Bytes) :
    ((frameImage c source target cmd payload).drop 4).take payload.length = payload := by
  rw [frameImage_eq]
  exact List.take_left' rfl

@[simp] theorem frameImage_target (c : Config) (source target cmd : Byte) (payload : Bytes) :
    (frameImage c source target cmd payload).getD 1 0 = target := rfl

@[simp] theorem frameImage_command (c : Config) (source target cmd : Byte) (payload : Bytes) :
    (frameImage c source target cmd payload).getD 2 0 = cmd := rfl

/-- A frame to this device passes every check of 41 R130 and is read by the opcode map. -/
theorem decodeFrame_frameImage (c : Config) (flashErr : Bool) (source cmd : Byte) {payload : Bytes}
    (hn : payload.length ≤ 249) :
    decodeFrame c flashErr (frameImage c source c.devAddr cmd payload) =
      .ok (decodeCommand c flashErr cmd payload) := by
  have hlen : ((frameImage c source c.devAddr cmd payload).getD 3 0).toNat = payload.length + 6 :=
    frameImage_length_byte _ _ _ _ hn
  have hcrc := frameImage_crc_valid c source c.devAddr cmd payload
  obtain ⟨-, -, hend⟩ := frameImage_trailer c source c.devAddr cmd payload
  rw [decodeFrame_of_complete (by simp) (by rw [hlen, frameImage_length]), frameImage_length,
    show payload.length + 7 - 1 = payload.length + 6 from rfl,
    show payload.length + 7 - 3 = payload.length + 4 from rfl, hend, hcrc]
  simp only [frameImage_target, frameImage_command, Nat.add_sub_cancel, frameImage_payload, ne_eq, not_true_eq_false,
    Bool.false_eq_true, if_false]

/-! ### What a buffer that decodes holds -/

theorem decodeFrame_end {c : Config} {flashErr : Bool} {src tgt cmd len : Byte} {body : Bytes} {i : Instr}
    (h : decodeFrame c flashErr (src :: tgt :: cmd :: len :: body) = .ok i) :
    body[len.toNat - 4]? = some c.endByte := by
  rw [decodeFrame] at h
  split at h
  · cases h
  · split at h
    · cases h
    · rename_i endByte rest hbody
      split at h
      · cases h
      · rename_i hend
        rw [← List.head?_drop, hbody, List.head?_cons, not_not.1 hend]

/-- Bytes whose stored CRC is valid end in the CRC field of those before it (40 R112). -/
theorem eq_of_crc_valid {c : Config} {covered rest : Bytes} {b0 b1 : Byte}
    (h : c.crcIsInvalid (covered ++ b0 :: b1 :: rest) covered.length = false) :
    b0 = lo8 (c.crc covered) ∧ b1 = hi8 (c.crc covered) := by
  have hword : c.crc covered = le16 b0 b1 := by
    simpa [Config.crcIsInvalid] using h
  rw [hword, lo8_le16, hi8_le16]
  exact ⟨rfl, rfl⟩

/-- Bytes with `e` at index `n + 2` are `n` bytes, two more, `e`, and the rest. -/
theorem exists_trailer {body : Bytes} {n : Nat} {e : Byte} (h : body[n + 2]? = some e) :
    ∃ payload b0 b1 rest, payload.length = n ∧ body = payload ++ b0 :: b1 :: e :: rest := by
  obtain ⟨hlt, he⟩ := List.getElem?_eq_some_iff.1 h
  refine ⟨body.take n, body[n], body[n + 1], body.drop (n + 3), List.length_take_of_le (by omega), ?_⟩
  rw [← he, ← List.drop_eq_getElem_cons, ← List.drop_eq_getElem_cons, ← List.drop_eq_getElem_cons,
    List.take_append_drop]

/-- A buffer that decodes is a frame to this device, read by the opcode map, and whatever follows it (41 R123). -/
theorem decodeFrame_layout {c : Config} {flashErr : Bool} {buf : Bytes} {i : Instr}
    (h : decodeFrame c flashErr buf = .ok i) :
    ∃ source cmd payload rest, buf = frameImage c source c.devAddr cmd payload ++ rest ∧ payload.length ≤ 249 ∧
      i = decodeCommand c flashErr cmd payload := by
  obtain ⟨source, _, cmd, len, body, rfl, h6, -, rfl, hcrc, rfl⟩ := decodeFrame_ok h
  have hend := decodeFrame_end h
  rw [show len.toNat - 4 = len.toNat - 6 + 2 by omega] at hend
  obtain ⟨payload, b0, b1, rest, hn, rfl⟩ := exists_trailer hend
  have hlt := len.isLt
  have hlen : len = BitVec.ofNat 8 (payload.length + 6) := by
    rw [hn, Nat.sub_add_cancel h6, BitVec.ofNat_toNat, BitVec.setWidth_eq]
  have hcovered : len.toNat - 2 = (coveredBytes source c.devAddr cmd payload).length := by
    rw [coveredBytes_length]
    omega
  have hbuf : source :: c.devAddr :: cmd :: len :: (payload ++ b0 :: b1 :: c.endByte :: rest) =
      coveredBytes source c.devAddr cmd payload ++ b0 :: b1 :: c.endByte :: rest := by
    rw [coveredBytes, ← hlen]
    rfl
  rw [hcovered, hbuf] at hcrc
  obtain ⟨rfl, rfl⟩ := eq_of_crc_valid hcrc
  refine ⟨source, cmd, payload, rest, ?_, by omega, by rw [List.take_left' hn]⟩
  rw [hbuf, frameImage_eq, List.append_assoc]
  rfl

/-! ### The opcode map -/

section OpcodeMap

variable {c : Config}

theorem commands_distinct (h : c.CodesOk) :
    c.cmdRead ≠ c.cmdWrite ∧ c.cmdRead ≠ c.cmdWriteThenRead ∧ c.cmdWrite ≠ c.cmdWriteThenRead := by
  obtain ⟨hcmd, -, -⟩ := h
  simp only [List.nodup_cons, List.mem_cons, not_or] at hcmd
  obtain ⟨⟨hrw, hrwr, -⟩, ⟨hwwr, -⟩, -⟩ := hcmd
  exact ⟨hrw, hrwr, hwwr⟩

theorem decodePair_readFwId (rest : Bytes) : decodePair c c.cmdRead c.locFwId rest = .readFwId rest :=
  if_pos ⟨rfl, rfl⟩

theorem decodePair_readCompiler (h : c.CodesOk) (rest : Bytes) :
    decodePair c c.cmdRead c.locCompiler rest = .readCompiler rest := by
  obtain ⟨-, hloc, -⟩ := h
  simp only [List.nodup_cons, List.mem_cons, not_or] at hloc
  obtain ⟨⟨hfw, -⟩, -⟩ := hloc
  simp [decodePair, Ne.symm hfw]

theorem decodePair_readTarget (h : c.CodesOk) (rest : Bytes) :
    decodePair c c.cmdRead c.locTarget rest = .readTarget rest := by
  obtain ⟨-, hloc, -⟩ := h
  simp only [List.nodup_cons, List.mem_cons, not_or] at hloc
  obtain ⟨⟨-, hfw, -⟩, ⟨hcompiler, -⟩, -⟩ := hloc
  simp [decodePair, Ne.symm hfw, Ne.symm hcompiler]

theorem decodePair_writeControlStatus (h : c.CodesOk) (rest : Bytes) :
    decodePair c c.cmdWrite c.locControlStatus rest = .writeControlStatus rest := by
  obtain ⟨hread, -, -⟩ := commands_distinct h
  simp [decodePair, hread.symm]

theorem decodePair_writeFwBlock (h : c.CodesOk) (rest : Bytes) :
    decodePair c c.cmdWrite c.locFwBlock rest = .writeFwBlock rest := by
  obtain ⟨hread, -, hwriteRead⟩ := commands_distinct h
  obtain ⟨-, hloc, -⟩ := h
  simp only [List.nodup_cons, List.mem_cons, not_or] at hloc
  obtain ⟨-, -, -, ⟨hcontrol, -⟩, -⟩ := hloc
  simp [decodePair, hread.symm, Ne.symm hcontrol]

theorem decodePair_writeReflash (h : c.CodesOk) (rest : Bytes) :
    decodePair c c.cmdWrite c.locReflash rest = .writeReflash rest := by
  obtain ⟨hread, -, -⟩ := commands_distinct h
  obtain ⟨-, hloc, -⟩ := h
  simp only [List.nodup_cons, List.mem_cons, not_or] at hloc
  obtain ⟨-, -, -, ⟨-, hcontrol, -⟩, ⟨hblock, -⟩, -⟩ := hloc
  simp [decodePair, hread.symm, Ne.symm hcontrol, Ne.symm hblock]

theorem pairHandled_eq_true_iff (cmd loc : Byte) :
    c.pairHandled cmd loc = true ↔
      (cmd, loc) ∈ [(c.cmdRead, c.locFwId), (c.cmdRead, c.locCompiler), (c.cmdRead, c.locTarget),
        (c.cmdRead, c.locControlStatus), (c.cmdWrite, c.locControlStatus),
        (c.cmdWriteThenRead, c.locControlStatus), (c.cmdWrite, c.locFwBlock), (c.cmdWrite, c.locReflash)] := by
  simp only [Config.pairHandled, Bool.or_eq_true, Bool.and_eq_true, beq_iff_eq, List.mem_cons, Prod.mk.injEq,
    List.not_mem_nil, or_false]
  tauto

/-- A pair that no row handles is the last row's (30 R95). -/
theorem decodePair_unknown {cmd loc : Byte} (h : c.pairHandled cmd loc = false) (rest : Bytes) :
    decodePair c cmd loc rest = .unknownPair cmd loc rest := by
  rw [← Bool.not_eq_true, pairHandled_eq_true_iff] at h
  simp only [List.mem_cons, Prod.mk.injEq, List.not_mem_nil, or_false, not_or] at h
  obtain ⟨h3, h4, h5, h6, h7, h8, h9, h10⟩ := h
  rw [decodePair, if_neg h3, if_neg h4, if_neg h5, if_neg h6, if_neg h7, if_neg h8, if_neg h9, if_neg h10]

/-- The row a pair takes has the pair's frame, and is well formed where the payload fits. -/
theorem decodePair_frame_wf (h : c.CodesOk) (cmd loc : Byte) (rest : Bytes) :
    (decodePair c cmd loc rest).frame c = some (cmd, loc :: rest) ∧
      (c.restFits rest = true → (decodePair c cmd loc rest).wf c = true) := by
  cases hp : c.pairHandled cmd loc with
  | false => simp [decodePair_unknown hp, Instr.frame, Instr.wf, hp]
  | true =>
    have hrows := (pairHandled_eq_true_iff cmd loc).1 hp
    simp only [List.mem_cons, Prod.mk.injEq, List.not_mem_nil, or_false] at hrows
    rcases hrows with ⟨rfl, rfl⟩ | ⟨rfl, rfl⟩ | ⟨rfl, rfl⟩ | ⟨rfl, rfl⟩ | ⟨rfl, rfl⟩ | ⟨rfl, rfl⟩ | ⟨rfl, rfl⟩ |
      ⟨rfl, rfl⟩
    · rw [decodePair_readFwId]; exact ⟨rfl, id⟩
    · rw [decodePair_readCompiler h]; exact ⟨rfl, id⟩
    · rw [decodePair_readTarget h]; exact ⟨rfl, id⟩
    · rw [decodePair_readControlStatus h]; exact ⟨rfl, id⟩
    · rw [decodePair_writeControlStatus h]; exact ⟨rfl, id⟩
    · rw [decodePair_writeThenRead h]; exact ⟨rfl, id⟩
    · rw [decodePair_writeFwBlock h]; exact ⟨rfl, id⟩
    · rw [decodePair_writeReflash h]; exact ⟨rfl, id⟩

theorem decodeCommand_degradedRead (payload : Bytes) : decodeCommand c true c.cmdRead payload = .degradedRead payload :=
  if_pos ⟨rfl, rfl⟩

theorem decodeCommand_degradedWriteThenRead (h : c.CodesOk) (payload : Bytes) :
    decodeCommand c true c.cmdWriteThenRead payload = .degradedWriteThenRead payload := by
  obtain ⟨-, hread, -⟩ := commands_distinct h
  exact (if_neg fun hx => hread hx.2.symm).trans (if_pos ⟨rfl, rfl⟩)

/-- Where row 1 does not apply, `flash_err` plays no part (30 R97). -/
theorem decodeCommand_of_not_degraded {flashErr : Bool} {cmd : Byte}
    (h : ¬ (flashErr = true ∧ (cmd = c.cmdRead ∨ cmd = c.cmdWriteThenRead))) (payload : Bytes) :
    decodeCommand c flashErr cmd payload = decodeCommand c false cmd payload := by
  unfold decodeCommand
  rw [if_neg fun hx => h ⟨hx.1, .inl hx.2⟩, if_neg fun hx => h ⟨hx.1, .inr hx.2⟩]
  rfl

theorem decodeCommand_nil (cmd : Byte) : decodeCommand c false cmd [] = .emptyPayload cmd := rfl

theorem decodeCommand_cons (cmd loc : Byte) (rest : Bytes) :
    decodeCommand c false cmd (loc :: rest) = decodePair c cmd loc rest := rfl

/-- What the opcode map reads from a command and a payload has that command and payload, and is well formed where the
payload fits. -/
theorem decodeCommand_frame_wf (h : c.CodesOk) (flashErr : Bool) (cmd : Byte) (payload : Bytes) :
    (decodeCommand c flashErr cmd payload).frame c = some (cmd, payload) ∧
      (payload.length ≤ c.maxPayload → (decodeCommand c flashErr cmd payload).wf c = true) := by
  by_cases hd : flashErr = true ∧ (cmd = c.cmdRead ∨ cmd = c.cmdWriteThenRead)
  · obtain ⟨rfl, rfl | rfl⟩ := hd
    · rw [decodeCommand_degradedRead]
      exact ⟨rfl, decide_eq_true⟩
    · rw [decodeCommand_degradedWriteThenRead h]
      exact ⟨rfl, decide_eq_true⟩
  · rw [decodeCommand_of_not_degraded hd]
    cases payload with
    | nil => exact ⟨rfl, fun _ => rfl⟩
    | cons loc rest =>
      obtain ⟨hframe, hwf⟩ := decodePair_frame_wf h cmd loc rest
      exact ⟨hframe, fun hfit => hwf (decide_eq_true hfit)⟩

/-- The opcode map reads a well-formed frame command back from its command byte and payload. -/
theorem decodeCommand_of_frame (h : c.CodesOk) {i : Instr} (hwf : i.wf c = true) {cmd : Byte} {payload : Bytes}
    (hframe : i.frame c = some (cmd, payload)) : decodeCommand c i.needsFlashErr cmd payload = i := by
  cases i with
  | degradedRead => cases hframe; exact decodeCommand_degradedRead _
  | degradedWriteThenRead => cases hframe; exact decodeCommand_degradedWriteThenRead h _
  | emptyPayload => cases hframe; exact decodeCommand_nil _
  | readFwId => cases hframe; exact decodePair_readFwId _
  | readCompiler => cases hframe; exact decodePair_readCompiler h _
  | readTarget => cases hframe; exact decodePair_readTarget h _
  | readControlStatus => cases hframe; exact decodePair_readControlStatus h _
  | writeControlStatus => cases hframe; exact decodePair_writeControlStatus h _
  | writeThenReadControlStatus => cases hframe; exact decodePair_writeThenRead h _
  | writeFwBlock => cases hframe; exact decodePair_writeFwBlock h _
  | writeReflash => cases hframe; exact decodePair_writeReflash h _
  | unknownPair cmd loc rest =>
    cases hframe
    simp only [Instr.wf, Bool.and_eq_true, Bool.not_eq_true'] at hwf
    obtain ⟨-, hunhandled⟩ := hwf
    exact decodePair_unknown hunhandled _
  | rxByte | tick | poll | txReady | uartShiftOut | flashStep | reset | powerFail => cases hframe

theorem payload_fits_of_frame {i : Instr} (hwf : i.wf c = true) {cmd : Byte} {payload : Bytes}
    (hframe : i.frame c = some (cmd, payload)) : payload.length ≤ c.maxPayload := by
  cases i with
  | degradedRead | degradedWriteThenRead => cases hframe; exact of_decide_eq_true hwf
  | emptyPayload => cases hframe; exact Nat.zero_le _
  | readFwId | readCompiler | readTarget | readControlStatus | writeControlStatus | writeThenReadControlStatus
  | writeFwBlock | writeReflash => cases hframe; exact of_decide_eq_true hwf
  | unknownPair cmd loc rest =>
    cases hframe
    simp only [Instr.wf, Bool.and_eq_true] at hwf
    obtain ⟨hfits, -⟩ := hwf
    exact of_decide_eq_true hfits
  | rxByte | tick | poll | txReady | uartShiftOut | flashStep | reset | powerFail => cases hframe

end OpcodeMap

/-- START is the first byte of a frame's wire image, so decoding skips nothing (30 R85, 41 R120). -/
theorem decodeWire_frameWire (c : Config) (flashErr : Bool) (source target cmd : Byte) (payload : Bytes) :
    decodeWire c flashErr (frameWire c source target cmd payload) =
      decodeFrame c flashErr (frameImage c source target cmd payload) := by
  rw [decodeWire, frameWire, List.dropWhile_cons_of_neg (by simp)]

/-- A table key is a frame to this device, so the opcode map reads it (log 13). -/
theorem decodeTableWord_eq (nbits w : Nat) :
    decodeTableWord nbits w = some
      (if nbits ≤ 8 then decodeCommand Config.ref false (BitVec.ofNat 8 w) []
      else decodeCommand Config.ref false (BitVec.ofNat 8 (w / 256)) [BitVec.ofNat 8 w]) := by
  by_cases h : nbits ≤ 8
  · rw [decodeTableWord, keyFrame, if_pos h, if_pos h, decodeFrame_frameImage (payload := []) _ _ _ _ (Nat.zero_le 249)]
  · rw [decodeTableWord, keyFrame, if_neg h, if_neg h, decodeFrame_frameImage (payload := [_]) _ _ _ _
      (by decide : 1 ≤ 249)]

/-! ### Script lines -/

/-- No character of the word ends a word or starts a comment (30 R98). -/
abbrev PlainWord (word : List Char) : Prop := ∀ ch ∈ word, ch ≠ ';' ∧ ch ≠ ' ' ∧ ch ≠ '\t'

theorem scriptWordsFrom_plain (acc : List Char) {word : List Char} (h : PlainWord word) (rest : List Char) :
    scriptWordsFrom acc (word ++ rest) = scriptWordsFrom (acc ++ word) rest := by
  induction word generalizing acc with
  | nil => simp
  | cons ch word ih =>
    obtain ⟨⟨hcomment, hspace, htab⟩, hword⟩ := List.forall_mem_cons.1 h
    rw [List.cons_append, scriptWordsFrom, if_neg hcomment, if_neg (by simp [hspace, htab]), ih _ hword]
    simp

theorem scriptWordsFrom_space (acc rest : List Char) :
    scriptWordsFrom acc (' ' :: rest) = flushWord acc ++ scriptWordsFrom [] rest := by
  rw [scriptWordsFrom, if_neg (by decide), if_pos (by decide)]

theorem hexChar_plain {n : Nat} (h : n < 16) : hexChar n ≠ ';' ∧ hexChar n ≠ ' ' ∧ hexChar n ≠ '\t' := by
  revert n
  decide

theorem hexDigit_hexChar {n : Nat} (h : n < 16) : hexDigit (hexChar n) = some n := by
  revert n
  decide

theorem hexByte_plain (b : Byte) : PlainWord (hexByte b) := by
  have hb := b.isLt
  have hhi := hexChar_plain (n := b.toNat / 16) (by omega)
  have hlo := hexChar_plain (n := b.toNat % 16) (by omega)
  simp [PlainWord, hexByte, hhi, hlo]

/-- Two upper-case digits are read back as the byte they were written from. -/
theorem scriptByte_hexByte (b : Byte) : scriptByte (hexByte b) = .ok b := by
  have hb := b.isLt
  have hhi := hexDigit_hexChar (n := b.toNat / 16) (by omega)
  have hlo := hexDigit_hexChar (n := b.toNat % 16) (by omega)
  have hnumber : scriptNumber (hexByte b) = .ok b.toNat := by
    simp only [scriptNumber, hexByte, hexNumberFrom, hhi, hlo, Except.ok.injEq]
    omega
  rw [scriptByte, hnumber]
  simp [hb]

theorem scriptBytes_hexBytes (bytes : Bytes) : scriptBytes (bytes.map hexByte) = .ok bytes := by
  induction bytes with
  | nil => rfl
  | cons b bytes ih => simp only [List.map_cons, scriptBytes, scriptByte_hexByte, ih]

/-- A word and byte operands are split into that word and one word for each byte. -/
theorem scriptWords_operands {word : List Char} (hne : word ≠ []) (h : PlainWord word) (bytes : Bytes) :
    scriptWords (word ++ hexOperands bytes) = word :: bytes.map hexByte := by
  rw [scriptWords]
  induction bytes generalizing word with
  | nil => rw [scriptWordsFrom_plain _ h]; simp [hexOperands, scriptWordsFrom, flushWord, hne]
  | cons b bytes ih =>
    have hoperands : hexOperands (b :: bytes) = ' ' :: (hexByte b ++ hexOperands bytes) := rfl
    rw [scriptWordsFrom_plain _ h, hoperands, scriptWordsFrom_space, ih (by simp [hexByte]) (hexByte_plain b)]
    simp [flushWord, hne]

theorem decodeWords_rx (c : Config) (args : List (List Char)) :
    decodeWords c (['R', 'X'] :: args) = (scriptBytes args).map rxEvents := rfl

theorem decodeWords_pfail (c : Config) (args : List (List Char)) :
    decodeWords c (['P', 'F', 'A', 'I', 'L'] :: args) = (scriptBytes args).map fun d => [.event (.powerFail d)] := rfl

/-- An event's script line stands for that event (30 R98). -/
theorem decodeLine_event (c : Config) (e : Event) : decodeLine c e.instr.line = .ok [.event e] := by
  cases e with
  | rxByte b =>
    have hwords : scriptWords (Event.rxByte b).instr.line = ['R', 'X'] :: [b].map hexByte :=
      scriptWords_operands (by simp) (by simp [PlainWord]) [b]
    rw [decodeLine, hwords, decodeWords_rx, scriptBytes_hexBytes]
    rfl
  | powerFail d =>
    have hwords : scriptWords (Event.powerFail d).instr.line = ['P', 'F', 'A', 'I', 'L'] :: d.map hexByte :=
      scriptWords_operands (by simp) (by simp [PlainWord]) d
    rw [decodeLine, hwords, decodeWords_pfail, scriptBytes_hexBytes]
    rfl
  | reset r => cases r <;> rfl
  | tick | poll | txReady | uartShiftOut | flashStep => rfl

/-! ### A frame received byte by byte -/

theorem exec_rxByte_start {s : State} (hg : gie s = true) (hi : s.rxIe = true) (ha : s.rxActive = false) :
    exec (.rxByte s.cfg.startByte) s =
      .next { s with rxActive := true, rxCursor := 0, gapTimer := s.cfg.gapTicks } := by
  show execRxByte _ s = _
  rw [execRxByte, if_pos ⟨hg, hi⟩, ha, if_neg (by simp), if_pos rfl]

theorem exec_rxByte_stored {s : State} (hg : gie s = true) (hi : s.rxIe = true) (ha : s.rxActive = true)
    (hroom : s.rxCursor < s.cfg.bufSize) (b : Byte) :
    exec (.rxByte b) s = .next
      { s with buf := s.buf.store none s.rxCursor b, rxCursor := s.rxCursor + 1, gapTimer := s.cfg.gapTicks } := by
  show execRxByte b s = _
  rw [execRxByte, if_pos ⟨hg, hi⟩, if_pos ha, acceptByte, if_pos hroom, bufStore, if_pos hroom]
  rfl

/-- Bytes for which there is room are stored in order from the cursor on (41 R123). -/
theorem runEvents_stored {s : State} (hg : gie s = true) (hi : s.rxIe = true) (ha : s.rxActive = true)
    (hgap : s.gapTimer = s.cfg.gapTicks) (bytes : Bytes) (hroom : s.rxCursor + bytes.length ≤ s.cfg.bufSize) :
    runEvents (bytes.map Event.rxByte) s = .next
      { s with buf := s.buf.storeAll none s.rxCursor bytes, rxCursor := s.rxCursor + bytes.length } := by
  induction bytes generalizing s with
  | nil => rfl
  | cons b bytes ih =>
    rw [List.length_cons] at hroom
    rw [List.map_cons, runEvents, Event.instr, exec_rxByte_stored hg hi ha (by omega)]
    have hstored := @ih { s with
      buf := s.buf.store none s.rxCursor b, rxCursor := s.rxCursor + 1, gapTimer := s.cfg.gapTicks } hg hi ha rfl
      (by show s.rxCursor + 1 + _ ≤ s.cfg.bufSize; omega)
    refine hstored.trans ?_
    simp only [Memory.storeAll, List.length_cons, hgap, Nat.add_assoc, Nat.add_comm 1]

/-- A hunting block once it has received START and `frame` (41 R120 to R123). -/
def withReceived (frame : Bytes) (s : State) : State :=
  { s with buf := s.buf.storeAll none 0 frame, rxActive := true, rxCursor := frame.length, gapTimer := s.cfg.gapTicks }

theorem runEvents_withReceived {s : State} (hg : gie s = true) (hi : s.rxIe = true) (ha : s.rxActive = false)
    {frame : Bytes} (hroom : frame.length ≤ s.cfg.bufSize) :
    runEvents ((s.cfg.startByte :: frame).map Event.rxByte) s = .next (withReceived frame s) := by
  rw [List.map_cons, runEvents, Event.instr, exec_rxByte_start hg hi ha]
  have hstored := runEvents_stored (s := { s with rxActive := true, rxCursor := 0, gapTimer := s.cfg.gapTicks })
    hg hi rfl rfl frame (by rwa [Nat.zero_add])
  refine hstored.trans ?_
  simp only [Nat.zero_add, withReceived]

theorem frameArrived_withReceived {s : State} (hp : PollEnabled s) (hidle : s.txPhase = .idle) {frame : Bytes}
    (hlen : frame.length = (frame.getD 3 0).toNat + 1) (h7 : 7 ≤ frame.length) :
    FrameArrived (withReceived frame s) frame :=
  ⟨hp, hidle, rfl, BufHolds_storeAll s 0 frame, hlen, le_refl _, h7⟩

/-- POLL on a frame that decodes is the decoded command, after the record FRAME (41 R131). -/
theorem execPoll_of_decoded {s : State} {frame : Bytes} {i : Instr} (h : FrameArrived s frame)
    (hdecode : decodeFrame s.cfg s.flashErr frame = .ok i) :
    exec .poll s = exec i (emit (.frame (frame.getD 0 0) (frame.getD 2 0) ((frame.drop 4).take (frame.length - 7)))
      { s with pollResult := true, rxIe := false }) := by
  have hframe : (i.frame s.cfg).isSome = true := by
    obtain ⟨source, cmd, payload, rest, -, -, rfl⟩ := decodeFrame_layout hdecode
    exact decodeCommand_frame _ _ _ _
  rw [execPoll_of_frame h, answerFrame]
  simp only [hdecode]
  exact (exec_eq_route (s := emit _ { s with pollResult := true, rxIe := false }) hframe).symm

/-! ### The reply's frame -/

theorem find?_replied {s : State} {code source : Byte} {payload : Bytes} {k : Nat} (hk : k < payload.length + 7) :
    (replied code source payload s).buf.find? k =
      some ((frameImage s.cfg s.cfg.devAddr source code payload).getD k 0) := by
  have hlen : k < (frameImage s.cfg s.cfg.devAddr source code payload).length := by rwa [frameImage_length]
  have hstored := Memory.find?_storeAll_none (a := 0) _ s.buf hlen
  rw [replied_buf, List.getD_eq_getElem _ _ hlen, ← hstored, Nat.zero_add]

theorem frameImage_payload_byte (c : Config) (source target cmd : Byte) {payload : Bytes} {k : Nat}
    (hk : k < payload.length) : (frameImage c source target cmd payload).getD (4 + k) 0 = payload[k] := by
  rw [frameImage_eq, List.getD_append _ _ _ _ (by rw [coveredBytes_length]; omega), coveredBytes,
    List.getD_append_right _ _ _ _ (Nat.le_add_right 4 k)]
  simp [hk]

/-! ### The schedule's items -/

/-- Taking an event replaces the script, so what it was before makes no difference. -/
theorem takeEvent_script (s : State) (script items : List Stimulus) :
    takeEvent { s with script := script } items = takeEvent s items := by
  induction items generalizing s with
  | nil => rfl
  | cons item items ih =>
    cases item with
    | event e => rfl
    | snap bytes => exact ih { s with snapQueue := s.snapQueue ++ [bytes] }
    | drain => simp only [takeEvent, ih]; rfl
    | flash => simp only [takeEvent, ih]

/-- The step where an item takes an event and stays at the head of the script. -/
theorem step_of_kept {s : State} {item : Stimulus} {rest : List Stimulus} {e : Event} (ha : s.cfg.Admitted)
    (h : s.script = item :: rest) (hnext : takeEvent s (item :: rest) = (e, { s with script := item :: rest })) :
    step s = exec e.instr s := by
  rw [step_of_admitted ha, nextEvent, h, hnext, ← h]

/-- The step where an item takes no event is that of the script without it. -/
theorem step_of_skipped {s : State} {item : Stimulus} {rest : List Stimulus} {queue : List Bytes}
    (h : s.script = item :: rest) (hnext : takeEvent s (item :: rest) = takeEvent { s with snapQueue := queue } rest) :
    step s = step { s with snapQueue := queue, script := rest } := by
  have hskip : nextEvent s = nextEvent { s with snapQueue := queue, script := rest } := by
    rw [nextEvent, h, hnext]
    exact (takeEvent_script { s with snapQueue := queue } rest rest).symm
  unfold step
  rw [hskip]

/-! ### The obligations -/

/-- Settles O6: a frame command is read back through its frame and the opcode map, an event through its script line. -/
theorem decodeUndoesEncode : Obligations.DecodeUndoesEncode := by
  intro c source i ha hwf
  have hmax := (admitted_sizes ha).2
  rcases frame_or_event c i with hframe | ⟨e, rfl⟩
  · obtain ⟨⟨cmd, payload⟩, hframe⟩ := Option.isSome_iff_exists.1 hframe
    have hfit := payload_fits_of_frame hwf hframe
    rw [encode, hframe]
    show decodeWire c _ (frameWire c source c.devAddr cmd payload) = _
    rw [decodeWire_frameWire, decodeFrame_frameImage c _ source cmd (by omega), decodeCommand_of_frame ha.1 hwf hframe]
  · have hline : encode c source e.instr = .line e.instr.line := by cases e <;> rfl
    rw [hline, decode, decodeLine_event]

/-- Settles O7, by the layout of a buffer that decodes. -/
theorem decodedFramesAreTheirEncoding : Obligations.DecodedFramesAreTheirEncoding := by
  intro c flashErr buf i ha h
  obtain ⟨source, cmd, payload, rest, rfl, hfit, rfl⟩ := decodeFrame_layout h
  obtain ⟨hframe, hwf⟩ := decodeCommand_frame_wf ha.1 flashErr cmd payload
  refine ⟨cmd, payload, hframe, hwf (by rw [(admitted_sizes ha).2]; exact hfit), ?_⟩
  rw [List.take_left' (frameImage_length ..)]
  rfl

/-- Settles O8: row 1, row 2, and the pairs row by row. -/
theorem opcodeMapTakesTheFirstRow : Obligations.OpcodeMapTakesTheFirstRow := by
  rintro c ⟨hcodes, -, -⟩
  refine ⟨fun payload => ⟨decodeCommand_degradedRead payload, decodeCommand_degradedWriteThenRead hcodes payload⟩,
    fun flashErr cmd hd => ?_⟩
  simp only [decodeCommand_of_not_degraded hd, decodeCommand_nil, decodeCommand_cons, true_and]
  intro loc rest
  refine ⟨?_, ?_, ?_, ?_, ?_, ?_, ?_, ?_, fun hpair => ?_⟩
  · rintro rfl rfl; exact decodePair_readFwId rest
  · rintro rfl rfl; exact decodePair_readCompiler hcodes rest
  · rintro rfl rfl; exact decodePair_readTarget hcodes rest
  · rintro rfl rfl; exact decodePair_readControlStatus hcodes rest
  · rintro rfl rfl; exact decodePair_writeControlStatus hcodes rest
  · rintro rfl rfl; exact decodePair_writeThenRead hcodes rest
  · rintro rfl rfl; exact decodePair_writeFwBlock hcodes rest
  · rintro rfl rfl; exact decodePair_writeReflash hcodes rest
  · exact decodePair_unknown (Bool.eq_false_iff.2 fun h => hpair ((pairHandled_eq_true_iff cmd loc).1 h)) rest

/-- Settles O19: each byte of the reply is that of its frame, which the layout of a frame gives. -/
theorem composedReplyIsAFrame : Obligations.ComposedReplyIsAFrame := by
  rintro s code source payload - hn t rfl
  obtain ⟨hlo, hhi, hend⟩ := frameImage_trailer s.cfg s.cfg.devAddr source code payload
  refine ⟨rfl, find?_replied (by omega), find?_replied (by omega), find?_replied (by omega),
    ⟨_, find?_replied (by omega), frameImage_length_byte _ _ _ _ hn⟩, fun k hk => ?_,
    ⟨coveredBytes s.cfg.devAddr source code payload, rfl, fun k hk => ?_, ?_, ?_⟩, ?_, fun a ha => ?_, rfl,
    fun k hk => ?_⟩
  · rw [find?_replied (by omega), frameImage_payload_byte _ _ _ _ hk]
  · rw [Nat.zero_add, find?_replied (by rw [coveredBytes_length] at hk; omega), frameImage_eq,
      List.getD_append _ _ _ _ hk, List.getD_eq_getElem _ _ hk]
  · rw [find?_replied (by omega), hlo]
  · rw [find?_replied (by omega), hhi]
  · rw [find?_replied (by omega), hend]
  · exact find?_replied_above _ _ _ _ ha
  · cases k with
    | zero => rfl
    | succ k => exact bufByte_ok (find?_replied (by omega))

/-- Settles O58: the frame is stored byte by byte, and POLL runs the command that decoding it gives. -/
theorem receivedCommandIsExecuted : Obligations.ReceivedCommandIsExecuted := by
  rintro s source cmd payload _ ha hp hi hidle hact hn rfl
  obtain ⟨hbuf, -⟩ := admitted_sizes ha
  have hg : gie s = true := (gie_eq_true_iff s).2 ⟨hp.1, by simp [hp.2], by simp [hp.2]⟩
  have hlen := frameImage_length s.cfg source s.cfg.devAddr cmd payload
  have harrived := frameArrived_withReceived hp hidle
    (by rw [hlen, frameImage_length_byte s.cfg source s.cfg.devAddr cmd hn]) (by omega)
  refine ⟨_, runEvents_withReceived hg hi hact (by omega), ?_, BufHolds_storeAll s 0 _, fun a h => ?_, ?_⟩
  · rw [withReceived, hlen]
  · exact Memory.find?_storeAll_other _ _ (by omega)
  · rw [execPoll_of_decoded harrived (decodeFrame_frameImage s.cfg s.flashErr source cmd hn), hlen, Nat.add_sub_cancel,
      frameImage_payload]
    rfl

/-- Settles O3, by what each item gives `takeEvent`. -/
theorem scriptItemsAreScheduled : Obligations.ScriptItemsAreScheduled := by
  intro s rest
  refine ⟨fun bytes h => ?_, fun ha h => ⟨fun hready => ?_, fun hready hfifo => ?_, fun hready hfifo => ?_⟩,
    fun ha h => ⟨fun hidle hrebooted => ?_, fun hrest => ?_⟩⟩
  · exact step_of_skipped h (by rw [takeEvent])
  · exact step_of_kept ha h (by rw [takeEvent, if_pos hready])
  · exact step_of_kept ha h (by rw [takeEvent, if_neg hready, if_pos hfifo])
  · exact step_of_skipped h (by rw [takeEvent, if_neg hready, if_neg (not_not.2 hfifo)])
  · exact step_of_kept ha h (by rw [takeEvent, if_pos ⟨hidle, hrebooted⟩])
  · exact step_of_skipped h (by rw [takeEvent, if_neg fun hx => hrest.elim hx.1 hx.2])

/-- Settles O5: the opcode map reads the table keys, and the decoder runs on the wire bytes and lines written out. -/
theorem writtenOutWordsDecode : Obligations.WrittenOutWordsDecode := by
  unfold Obligations.WrittenOutWordsDecode
  simp only [decodeTableWord_eq]
  decide +kernel

end Sys2Proof.Machine
end

section
/-! Proofs for 40_crc16: what a region holds after `crc_generate`, and when its stored CRC is valid. -/

namespace Sys2Proof.Machine

/-! ### The stored word -/

/-- A word determines its two bytes (00 R12). -/
theorem le16_inj {a0 a1 b0 b1 : Byte} : le16 a0 a1 = le16 b0 b1 ↔ a0 = b0 ∧ a1 = b1 := by
  refine ⟨fun h => ⟨?_, ?_⟩, ?_⟩
  · rw [← lo8_le16 a0 a1, h, lo8_le16]
  · rw [← hi8_le16 a0 a1, h, hi8_le16]
  · rintro ⟨rfl, rfl⟩
    rfl

/-- The check reads the word stored after the covered bytes (40 R112). -/
theorem crcIsInvalid_eq_false_iff {c : Config} {region : Bytes} {n : Nat} :
    c.crcIsInvalid region n = false ↔
      c.crc (region.take n) = le16 (region.getD n 0) (region.getD (n + 1) 0) :=
  bne_eq_false_iff_eq

/-- Two valid regions with the same covered bytes store the same CRC. -/
theorem crc_bytes_eq_of_valid {c : Config} {region changed : Bytes} {n : Nat}
    (htake : changed.take n = region.take n) (hregion : c.crcIsInvalid region n = false)
    (hchanged : c.crcIsInvalid changed n = false) :
    changed.getD n 0 = region.getD n 0 ∧ changed.getD (n + 1) 0 = region.getD (n + 1) 0 := by
  rw [crcIsInvalid_eq_false_iff] at hregion hchanged
  rw [← le16_inj, ← hchanged, htake, hregion]

/-! ### What `crc_generate` writes (40 R111) -/

theorem crcGenerate_eq (c : Config) (region : Bytes) (n : Nat) :
    c.crcGenerate region n =
      region.take n ++ lo8 (c.crc (region.take n)) :: hi8 (c.crc (region.take n)) :: region.drop (n + 2) :=
  List.append_assoc ..

section Generate
variable (c : Config) {region : Bytes} {n : Nat}

theorem take_crcGenerate (h : n ≤ region.length) : (c.crcGenerate region n).take n = region.take n := by
  rw [crcGenerate_eq, List.take_left' (List.length_take_of_le h)]

/-- From index `n` on: the CRC, low byte first, then the bytes that were there. -/
theorem crcGenerate_getD_add (h : n ≤ region.length) (k : Nat) :
    (c.crcGenerate region n).getD (n + k) 0 =
      (lo8 (c.crc (region.take n)) :: hi8 (c.crc (region.take n)) :: region.drop (n + 2)).getD k 0 := by
  have hn : (region.take n).length = n := List.length_take_of_le h
  rw [crcGenerate_eq, List.getD_append_right _ _ _ _ (by omega), hn, Nat.add_sub_cancel_left]

theorem crcGenerate_length (h : n + 2 ≤ region.length) : (c.crcGenerate region n).length = region.length := by
  simp only [crcGenerate_eq, List.length_append, List.length_cons, List.length_take, List.length_drop]
  omega

/-- The round trip of 40 R115. -/
theorem crcGenerate_valid (h : n ≤ region.length) : c.crcIsInvalid (c.crcGenerate region n) n = false := by
  have hlo : (c.crcGenerate region n).getD n 0 = lo8 (c.crc (region.take n)) := crcGenerate_getD_add c h 0
  have hhi : (c.crcGenerate region n).getD (n + 1) 0 = hi8 (c.crc (region.take n)) := crcGenerate_getD_add c h 1
  rw [crcIsInvalid_eq_false_iff, take_crcGenerate c h, hlo, hhi, le16_lo8_hi8]

theorem crcGenerate_getD_other (h : n ≤ region.length) {k : Nat} (hlo : k ≠ n) (hhi : k ≠ n + 1) :
    (c.crcGenerate region n).getD k 0 = region.getD k 0 := by
  rcases Nat.lt_or_ge k n with hk | hk
  · have hbyte : (c.crcGenerate region n)[k]? = region[k]? := by
      rw [← List.getElem?_take_of_lt hk, take_crcGenerate c h, List.getElem?_take_of_lt hk]
    rw [List.getD_eq_getElem?_getD, hbyte, List.getD_eq_getElem?_getD]
  · obtain ⟨j, rfl⟩ : ∃ j, k = n + (j + 2) := ⟨k - n - 2, by omega⟩
    rw [crcGenerate_getD_add c h, List.getD_cons_succ, List.getD_cons_succ, List.getD_eq_getElem?_getD,
      List.getElem?_drop, List.getD_eq_getElem?_getD, Nat.add_assoc, Nat.add_comm 2 j]

end Generate

/-! ### The obligation -/

/-- Settles O60: the check values by evaluation, the round trip and the frame by what `crc_generate` writes, and the
detection because valid regions with the same covered bytes store the same two CRC bytes. -/
theorem generatedChecksumsAreValid : Obligations.GeneratedChecksumsAreValid := by
  refine ⟨by decide +kernel, rfl, fun c region n h => ?_, fun c region changed n htake hvalid hdiff => ?_⟩
  · have hn : n ≤ region.length := by omega
    exact ⟨crcGenerate_valid c hn, crcGenerate_length c h, fun k => crcGenerate_getD_other c hn⟩
  · by_contra hchanged
    obtain ⟨h0, h1⟩ := crc_bytes_eq_of_valid htake hvalid (Bool.eq_false_iff.2 hchanged)
    exact hdiff.elim (· h0) (· h1)

end Sys2Proof.Machine
end

section
/-! Proofs for 41_receive: what RX_BYTE and TICK do in each case, what each of POLL's three steps does, and which
instructions raise the gap timer. -/

namespace Sys2Proof.Machine

/-! ### RX_BYTE (41 R122, R123) -/

theorem exec_rxByte_lost {s : State} (h : gie s = false ∨ s.rxIe = false) (b : Byte) : exec (.rxByte b) s = .next s :=
  if_neg fun hopen => by simp [hopen] at h

theorem exec_rxByte_ignored {s : State} (ha : s.rxActive = false) {b : Byte} (hb : b ≠ s.cfg.startByte) :
    exec (.rxByte b) s = .next s := by
  show execRxByte b s = .next s
  simp [execRxByte, ha, hb]

theorem exec_rxByte_dropped {s : State} (hg : gie s = true) (hi : s.rxIe = true) (ha : s.rxActive = true)
    (hfull : s.cfg.bufSize ≤ s.rxCursor) (b : Byte) :
    exec (.rxByte b) s = .next { s with gapTimer := s.cfg.gapTicks } := by
  show execRxByte b s = _
  rw [execRxByte, if_pos ⟨hg, hi⟩, if_pos ha, acceptByte, if_neg (by omega)]
  rfl

/-- Settles O22: one lemma per case of RX_BYTE, and the buffer's law for the byte that is stored. -/
theorem receivedBytesAreStoredOrLost : Obligations.ReceivedBytesAreStoredOrLost := by
  intro s b _
  refine ⟨fun h => exec_rxByte_lost h b, fun hg hi => ⟨fun ha hb => exec_rxByte_ignored ha hb, ?_,
    fun ha hroom => ?_, fun ha hfull => exec_rxByte_dropped hg hi ha hfull b⟩⟩
  · rintro ha rfl
    exact exec_rxByte_start hg hi ha
  · refine ⟨_, exec_rxByte_stored hg hi ha hroom b, rfl, ?_, fun a hne => ?_⟩
    · rw [Memory.find?_store_none, if_pos rfl]
    · rw [Memory.find?_store_none, if_neg hne]

/-! ### TICK (41 R125) -/

theorem exec_tick_frozen {s : State} (hg : gie s = false) : exec .tick s = .next s := if_neg (by simp [hg])

theorem exec_tick_counts {s : State} (hg : gie s = true) :
    exec .tick s = .next { s with gapTimer := s.gapTimer - 1, guardTimer := s.guardTimer - 1 } := if_pos hg

/-- Settles O23: truncated subtraction is a count that stops at 0. -/
theorem tickCountsBothTimersDown : Obligations.TickCountsBothTimersDown := by
  refine fun s => ⟨exec_tick_frozen, fun hg => ⟨_, exec_tick_counts hg, rfl, ?_, ?_, ?_, ?_⟩⟩ <;>
  · intro h
    dsimp only
    omega

/-! ### POLL step 1: housekeeping (41 R128) -/

/-- Fewer bytes than a whole frame have arrived (10 R28). -/
def PartialFrame (s : State) : Prop :=
  s.rxCursor < 4 ∨ ∃ len : Byte, s.buf.find? 3 = some len ∧ s.rxCursor < len.toNat + 1

theorem frameComplete_eq_false_iff (s : State) : frameComplete s = .ok false ↔ PartialFrame s := by
  unfold frameComplete PartialFrame
  by_cases hc : s.rxCursor < 4
  · simp [hc]
  · cases hlen : s.buf.find? 3 with
    | none => simp [hc, bufByte, hlen]
    | some len => simp [hc, bufByte, hlen]

/-- Housekeeping looks at the frame: the transmitter is idle, a frame is being received and the gap timer has expired. -/
abbrev GapExpired (s : State) : Prop := s.txPhase = .idle ∧ s.rxActive = true ∧ s.gapTimer = 0

theorem housekeeping_of_partial {s : State} (h : GapExpired s) (hpart : PartialFrame s) :
    housekeeping s = .ok (dropFrame .abandon s) := by
  rw [housekeeping, if_pos h, (frameComplete_eq_false_iff s).2 hpart, ok_bind]
  rfl

theorem housekeeping_of_complete {s : State} (h : frameComplete s = .ok true) : housekeeping s = .ok s := by
  unfold housekeeping
  rw [h, ok_bind]
  split <;> rfl

theorem housekeeping_of_not_expired {s : State} (h : ¬ GapExpired s) : housekeeping s = .ok s := if_neg h

theorem housekeeping_cases {s t : State} (h : housekeeping s = .ok t) : t = s ∨ GapExpired s ∧ PartialFrame s := by
  by_cases he : GapExpired s
  · rw [housekeeping, if_pos he] at h
    obtain ⟨complete, hc, h⟩ := bind_ok h
    cases complete with
    | true => cases h; exact .inl rfl
    | false => exact .inr ⟨he, (frameComplete_eq_false_iff s).1 hc⟩
  · rw [housekeeping_of_not_expired he] at h
    cases h
    exact .inl rfl

/-! ### The three steps of an enabled POLL (41 R127) -/

/-- The state with `poll_result` down, as POLL's first step finds it (41 R127). -/
abbrev polled (s : State) : State := { s with pollResult := false }

theorem exec_poll_of_housekeeping {s t : State} (hp : PollEnabled s) (h : housekeeping (polled s) = .ok t) :
    exec .poll s = frameCheck (turnaround t) := by
  show execPoll s = _
  rw [execPoll, if_pos hp, h]

theorem exec_poll_of_kept {s : State} (hp : PollEnabled s) (hidle : s.txPhase = .idle)
    (h : housekeeping (polled s) = .ok (polled s)) : exec .poll s = frameCheck (polled s) := by
  rw [exec_poll_of_housekeeping hp h, turnaround_of_idle (s := polled s) hidle]

/-- While a reply is pending or being sent POLL does step 2 only. -/
theorem exec_poll_of_sending {s : State} (hp : PollEnabled s) (hsend : s.txPhase ≠ .idle) :
    exec .poll s = .next (turnaround (polled s)) := by
  rw [exec_poll_of_housekeeping hp (housekeeping_of_not_expired fun h => hsend h.1)]
  apply frameCheck_of_not_receiving
  rcases turnaround_cases (polled s) with h | ⟨-, h⟩ | ⟨-, h⟩
  · exact .inl (by rwa [h])
  · exact .inl (by simp [h])
  · exact .inr (by rw [h]; rfl)

theorem exec_poll_of_partial {s : State} (hp : PollEnabled s) (h : GapExpired s) (hpart : PartialFrame s) :
    exec .poll s = .next (dropFrame .abandon (polled s)) := by
  rw [exec_poll_of_housekeeping hp (housekeeping_of_partial (s := polled s) h hpart),
    turnaround_of_idle (s := dropFrame .abandon (polled s)) h.1, frameCheck_of_not_receiving (.inr rfl)]

/-! ### Only step 1 abandons a frame -/

theorem answerFrame_not_abandon {s t : State} {frame : Bytes} (h : answerFrame frame s = .next t) :
    t.hostLog ≠ s.hostLog ++ [.abandon] := by
  unfold answerFrame at h
  split at h
  case h_1 | h_2 | h_3 => cases h; simp
  case h_4 =>
    obtain ⟨source, -, -, rfl⟩ := reply_inv (finish_next h)
    simp
  case h_5 => cases h; simp
  case h_6 =>
    obtain ⟨new, hnew⟩ := (route_exit h).onlyAppends.host_log
    simp [hnew]

theorem frameCheck_not_abandon {s t : State} (h : frameCheck s = .next t) : t.hostLog ≠ s.hostLog ++ [.abandon] := by
  rcases frameCheck_next h with rfl | ⟨-, frame, hframe⟩
  · simp
  · exact answerFrame_not_abandon hframe

theorem turnaround_hostLog (s : State) : (turnaround s).hostLog = s.hostLog := by
  rcases turnaround_cases s with h | ⟨-, h⟩ | ⟨-, h⟩ <;> rw [h]
  rfl

/-- Settles O26: housekeeping abandons in exactly these states, and no other step of POLL records ABANDON. -/
theorem pollAbandonsPartialFrames : Obligations.PollAbandonsPartialFrames := by
  intro s hp
  refine ⟨fun hidle ha hgap hpart => exec_poll_of_partial hp ⟨hidle, ha, hgap⟩ hpart, fun t h hlog => ?_⟩
  replace h : execPoll s = .next t := h
  rw [execPoll, if_pos hp] at h
  split at h
  case h_1 => cases h
  case h_2 u hu =>
    rcases housekeeping_cases hu with rfl | ⟨⟨hidle, ha, hgap⟩, hpart⟩
    · exact absurd (hlog.trans (by rw [turnaround_hostLog])) (frameCheck_not_abandon h)
    · exact ⟨hidle, ha, hgap, hpart⟩

/-! ### POLL step 2: the turnaround (41 R129) -/

theorem turnaround_of_pre {s : State} (h : s.txPhase = .pre) :
    turnaround s = if s.guardTimer = 0 then { s with txPhase := .xmit, txIe := true } else s := by
  simp only [turnaround, h]

theorem turnaround_of_xmit {s : State} (h : s.txPhase = .xmit) : turnaround s = s := by
  simp only [turnaround, h]

theorem turnaround_of_post {s : State} (h : s.txPhase = .post) :
    turnaround s = if s.guardTimer = 0 ∧ s.uartFifo = [] then resumeReceiving s else s := by
  simp only [turnaround, h]

/-- Settles O27: POLL in PRE, XMIT and POST is its step 2. -/
theorem pollSequencesTheTurnaround : Obligations.PollSequencesTheTurnaround := by
  intro s hp
  have hpre (h : s.txPhase = .pre) : exec .poll s = .next (turnaround (polled s)) := exec_poll_of_sending hp (by simp [h])
  have hpost (h : s.txPhase = .post) : exec .poll s = .next (turnaround (polled s)) :=
    exec_poll_of_sending hp (by simp [h])
  refine ⟨fun h hg => ?_, fun h hg => ?_, fun h => ?_, fun h hg hf => ?_, fun h hwait => ?_⟩
  · rw [hpre h, turnaround_of_pre (s := polled s) h, if_pos hg]
  · rw [hpre h, turnaround_of_pre (s := polled s) h, if_neg hg]
  · rw [exec_poll_of_sending hp (by simp [h]), turnaround_of_xmit (s := polled s) h]
  · rw [hpost h, turnaround_of_post (s := polled s) h, if_pos ⟨hg, hf⟩]
    rfl
  · rw [hpost h, turnaround_of_post (s := polled s) h, if_neg fun hdone => hwait.elim (· hdone.1) (· hdone.2)]

/-! ### POLL step 3: the frame check (41 R130) -/

theorem frameComplete_of_length {s : State} {len : Byte} (h4 : 4 ≤ s.rxCursor) (hlen : s.buf.find? 3 = some len)
    (hall : len.toNat + 1 ≤ s.rxCursor) : frameComplete s = .ok true := by
  rw [frameComplete, if_neg (by omega), bufByte_ok hlen, ok_bind, pure_eq_ok]
  simpa using hall

theorem frameCheck_of_header {s : State} {source target cmd len : Byte} (hidle : s.txPhase = .idle)
    (ha : s.rxActive = true) (h4 : 4 ≤ s.rxCursor) (hhead : BufHolds s 0 [source, target, cmd, len])
    (hext : len.toNat < 6 ∨ s.rxCursor < len.toNat + 1) : frameCheck s = answerFrame [source, target, cmd, len] s := by
  have hlen : bufByte s 3 = .ok len := bufByte_ok (hhead 3 (by simp))
  have hread : bufBytes s 0 4 = .ok [source, target, cmd, len] := bufBytes_holds hhead
  rw [frameCheck, if_pos ⟨hidle, ha, h4⟩, hlen]
  simp only [frameExtent, if_pos hext, hread]

theorem answerFrame_short {s : State} {source target cmd len : Byte} (hlen : len.toNat < 6) :
    answerFrame [source, target, cmd, len] s = .next (dropFrame (.discard .shortLength) s) := by
  simp only [answerFrame, decodeFrame, if_pos hlen]
  rfl

theorem answerFrame_header {s : State} {source target cmd len : Byte} (hlen : 6 ≤ len.toNat) :
    answerFrame [source, target, cmd, len] s = .next s := by
  simp only [answerFrame, decodeFrame, if_neg (Nat.not_lt.2 hlen), List.drop_nil]

section Arrived
variable {s : State} {frame : Bytes} (h : FrameArrived s frame)
include h

theorem exec_poll_badEnd (hend : frame.getD (frame.length - 1) 0 ≠ s.cfg.endByte) :
    exec .poll s = .next (dropFrame (.discard .badEnd) (polled s)) := by
  have hpoll := execPoll_of_frame h
  obtain ⟨-, -, -, -, hlen, -, h7⟩ := h
  rw [hpoll, answerFrame, decodeFrame_of_complete h7 hlen, if_pos hend]
  rfl

theorem exec_poll_foreign (hend : frame.getD (frame.length - 1) 0 = s.cfg.endByte)
    (hdev : frame.getD 1 0 ≠ s.cfg.devAddr) :
    exec .poll s = .next (dropFrame (.discard .foreign) (polled s)) := by
  have hpoll := execPoll_of_frame h
  obtain ⟨-, -, -, -, hlen, -, h7⟩ := h
  rw [hpoll, answerFrame, decodeFrame_of_complete h7 hlen, if_neg (not_not.2 hend), if_pos hdev]
  rfl

/-- The CRC word of a complete frame stands before its END byte (30 R86). -/
theorem crcIsInvalid_arrived_iff : s.cfg.crcIsInvalid frame (frame.length - 3) = true ↔
    s.cfg.crc (frame.take (frame.length - 3)) ≠
      le16 (frame.getD (frame.length - 3) 0) (frame.getD (frame.length - 2) 0) := by
  obtain ⟨-, -, -, -, -, -, h7⟩ := h
  rw [Config.crcIsInvalid, bne_iff_ne, show frame.length - 3 + 1 = frame.length - 2 by omega]

/-- A frame to this device whose CRC fails is counted, recorded, and answered by an empty NACK to its source. -/
theorem exec_poll_badCrc_replies (hadm : s.cfg.Admitted) (hend : frame.getD (frame.length - 1) 0 = s.cfg.endByte)
    (hdev : frame.getD 1 0 = s.cfg.devAddr) (hcrc : s.cfg.crcIsInvalid frame (frame.length - 3) = true) :
    exec .poll s = .next (replied s.cfg.nackCode (frame.getD 0 0) []
      (emit .crcReject { s with pollResult := false, rxIe := false, badCrcCount := s.badCrcCount + 1 })) := by
  have hpoll := execPoll_of_frame h
  obtain ⟨-, -, -, hholds, hlen, -, h7⟩ := h
  have hsource : s.buf.find? 0 = some (frame.getD 0 0) := by
    rw [List.getD_eq_getElem _ _ (by omega)]
    exact hholds 0 (by omega)
  have hreply := reply_ok (code := s.cfg.nackCode) (payload := [])
    (s := emit .crcReject { s with pollResult := false, rxIe := false, badCrcCount := s.badCrcCount + 1 })
    (canReply_of_admitted hadm (by simp [hsource]) (by decide)) hsource
  rw [hpoll, answerFrame, decodeFrame_of_complete h7 hlen, if_neg (not_not.2 hend), if_neg (not_not.2 hdev), if_pos hcrc]
  exact congrArg finish hreply

theorem exec_poll_dispatches (hend : frame.getD (frame.length - 1) 0 = s.cfg.endByte)
    (hdev : frame.getD 1 0 = s.cfg.devAddr) (hcrc : ¬ s.cfg.crcIsInvalid frame (frame.length - 3) = true) :
    exec .poll s =
      exec (decodeCommand s.cfg s.flashErr (frame.getD 2 0) ((frame.drop 4).take (frame.length - 7)))
        (emit (.frame (frame.getD 0 0) (frame.getD 2 0) ((frame.drop 4).take (frame.length - 7)))
          { s with pollResult := true, rxIe := false }) := by
  have hdecoded := fun i => execPoll_of_decoded (i := i) h
  obtain ⟨-, -, -, -, hlen, -, h7⟩ := h
  apply hdecoded
  rw [decodeFrame_of_complete h7 hlen, if_neg (not_not.2 hend), if_neg (not_not.2 hdev), if_neg hcrc]

end Arrived

/-- Settles O28: no frame or an incomplete one is left alone, and each outcome of the frame check has its lemma. -/
theorem pollChecksTheFrame : Obligations.PollChecksTheFrame := by
  intro s hadm hp hidle
  have hpoll := exec_poll_of_kept hp hidle
  have hkeep (hgap : s.gapTimer ≠ 0) : housekeeping (polled s) = .ok (polled s) :=
    housekeeping_of_not_expired fun h => hgap h.2.2
  refine ⟨fun ha => ?_, fun ha hc hgap => ?_, fun source target cmd len ha hc hhead =>
    ⟨fun hshort hwhole => ?_, fun hlen hpart hgap => ?_⟩, fun frame h =>
    ⟨exec_poll_badEnd h, exec_poll_foreign h, fun hend hdev => ⟨fun hcrc => ?_, fun hcrc => ?_⟩⟩⟩
  · have hquiet : ¬ GapExpired (polled s) := fun h => Bool.false_ne_true (ha.symm.trans h.2.1)
    rw [hpoll (housekeeping_of_not_expired hquiet), frameCheck_of_not_receiving (s := polled s) (.inr ha)]
  · rw [hpoll (hkeep hgap), frameCheck, if_neg fun h => absurd h.2.2 (Nat.not_le.2 hc)]
  · have hcomplete : len.toNat + 1 ≤ s.rxCursor → housekeeping (polled s) = .ok (polled s) := fun hall =>
      housekeeping_of_complete (frameComplete_of_length (s := polled s) hc (hhead 3 (by simp)) hall)
    rw [hpoll (hwhole.elim hkeep hcomplete), frameCheck_of_header (s := polled s) hidle ha hc hhead (.inl hshort),
      answerFrame_short hshort]
    rfl
  · rw [hpoll (hkeep hgap), frameCheck_of_header (s := polled s) hidle ha hc hhead (.inr hpart), answerFrame_header hlen]
  · exact exec_poll_badCrc_replies h hadm hend hdev ((crcIsInvalid_arrived_iff h).2 hcrc)
  · exact exec_poll_dispatches h hend hdev fun hbad => (crcIsInvalid_arrived_iff h).1 hbad hcrc

/-- Settles O4: the scripted POLL finds the frame, and POLL on a frame that decodes is the decoded command. -/
theorem stepRunsTheDecodedFrame : Obligations.StepRunsTheDecodedFrame := by
  intro s frame rest i ha hscript h hdecode
  rw [step_of_admitted ha, nextEvent_of_event hscript]
  exact execPoll_of_decoded (s := { s with script := rest }) h hdecode

/-! ### What the flash engine leaves of the gap timer -/

theorem flashWriteWord_gapTimer {a : Nat} {w : Word16} {s t : State} (h : flashWriteWord a w s = .ok t) :
    t.gapTimer = s.gapTimer := by
  obtain ⟨rfl, -⟩ := flashWriteWord_inv h
  rfl

theorem setFeOff_gapTimer {n : Nat} {s t : State} (h : setFeOff n s = .ok t) : t.gapTimer = s.gapTimer := by
  unfold setFeOff at h
  split at h <;> cases h
  rfl

theorem startupCheck_gapTimer {s t : State} (h : startupCheck s = .ok t) : t.gapTimer = s.gapTimer := by
  obtain ⟨pbad, -, h⟩ := bind_ok h
  obtain ⟨bbad, -, h⟩ := bind_ok h
  match pbad, bbad with
  | true, false | true, true | false, true | false, false => cases h; rfl

theorem copyErase_gapTimer {s t : State} (h : copyErase s = .ok t) : t.gapTimer = s.gapTimer := by
  obtain ⟨u, hu, h⟩ := bind_ok h
  obtain ⟨rfl, -⟩ := flashErase_inv hu
  cases h
  rfl

theorem copyWord_gapTimer {w : Word16} {s t : State} (h : copyWord w s = .ok t) : t.gapTimer = s.gapTimer := by
  unfold copyWord at h
  split at h
  · cases h; rfl
  · exact flashWriteWord_gapTimer h

theorem copyAdvance_gapTimer {s t : State} (h : copyAdvance s = .ok t) : t.gapTimer = s.gapTimer := by
  unfold copyAdvance at h
  split at h
  · obtain ⟨u, hu, h⟩ := bind_ok h
    unfold setFeSeg at hu
    split at hu <;> cases hu
    cases h
    rfl
  · cases h; rfl

theorem copyWrite_gapTimer {s t : State} (h : copyWrite s = .ok t) : t.gapTimer = s.gapTimer := by
  obtain ⟨w, -, h⟩ := bind_ok h
  obtain ⟨u, hu, h⟩ := bind_ok h
  obtain ⟨v, hv, h⟩ := bind_ok h
  rw [copyAdvance_gapTimer h, setFeOff_gapTimer hv, copyWord_gapTimer hu]

theorem selfHealFinish_gapTimer {s t : State} (h : selfHealFinish s = .ok t) : t.gapTimer = s.gapTimer := by
  obtain ⟨bad, -, h⟩ := bind_ok h
  cases bad with
  | true | false => cases h; rfl

theorem blockErase_gapTimer {s t : State} (h : blockErase s = .ok t) : t.gapTimer = s.gapTimer := by
  obtain ⟨u, hu, h⟩ := bind_ok h
  obtain ⟨rfl, -⟩ := flashErase_inv hu
  cases h
  rfl

theorem blockWriteWord_gapTimer {s t : State} (h : blockWriteWord s = .ok t) : t.gapTimer = s.gapTimer := by
  obtain ⟨lo, -, h⟩ := bind_ok h
  obtain ⟨hi, -, h⟩ := bind_ok h
  obtain ⟨u, hu, h⟩ := bind_ok h
  obtain ⟨v, hv, h⟩ := bind_ok h
  cases h
  exact (setFeOff_gapTimer hv).trans (flashWriteWord_gapTimer hu)

theorem blockVerify_gapTimer {s t : State} (h : blockVerify s = .ok t) : t.gapTimer = s.gapTimer := by
  obtain ⟨written, -, h⟩ := bind_ok h
  obtain ⟨sent, -, h⟩ := bind_ok h
  split at h <;>
  · obtain ⟨source, -, -, rfl⟩ := reply_inv h
    rfl

theorem exec_flashStep_gapTimer {s t : State} (h : exec .flashStep s = .next t) : t.gapTimer = s.gapTimer := by
  replace h : execFlashStep s = .next t := h
  unfold execFlashStep at h
  split at h
  case h_1 => exact startupCheck_gapTimer (finish_next h)
  case h_2 | h_6 => exact copyErase_gapTimer (finish_next h)
  case h_3 | h_7 => exact copyWrite_gapTimer (finish_next h)
  case h_4 => exact selfHealFinish_gapTimer (finish_next h)
  case h_5 | h_9 | h_13 => cases h
  case h_8 | h_14 | h_15 => cases h; rfl
  case h_10 => exact blockErase_gapTimer (finish_next h)
  case h_11 => exact blockWriteWord_gapTimer (finish_next h)
  case h_12 => exact blockVerify_gapTimer (finish_next h)

/-! ### Who raises the gap timer (41 R124) -/

theorem exec_rxByte_arms {s t : State} {b : Byte} (hg : gie s = true) (hi : s.rxIe = true)
    (hb : s.rxActive = true ∨ b = s.cfg.startByte) (h : exec (.rxByte b) s = .next t) :
    t.gapTimer = s.cfg.gapTicks := by
  cases ha : s.rxActive with
  | true =>
    rcases Nat.lt_or_ge s.rxCursor s.cfg.bufSize with hroom | hfull
    · rw [exec_rxByte_stored hg hi ha hroom] at h
      cases h
      rfl
    · rw [exec_rxByte_dropped hg hi ha hfull] at h
      cases h
      rfl
  | false =>
    obtain rfl : b = s.cfg.startByte := by simpa [ha] using hb
    rw [exec_rxByte_start hg hi ha] at h
    cases h
    rfl

theorem exec_rxByte_changes {s t : State} {b : Byte} (h : exec (.rxByte b) s = .next t) (hne : t ≠ s) :
    gie s = true ∧ s.rxIe = true ∧ (s.rxActive = true ∨ b = s.cfg.startByte) := by
  have hchanges : exec (.rxByte b) s ≠ .next s := by
    rw [h]
    simpa using hne
  refine ⟨?_, ?_, ?_⟩
  · by_contra hg
    exact hchanges (exec_rxByte_lost (.inl (Bool.eq_false_iff.2 hg)) b)
  · by_contra hi
    exact hchanges (exec_rxByte_lost (.inr (Bool.eq_false_iff.2 hi)) b)
  · by_contra hb
    obtain ⟨ha, hstart⟩ := not_or.1 hb
    exact hchanges (exec_rxByte_ignored (Bool.eq_false_iff.2 ha) hstart)

theorem exec_poll_gapTimer {s t : State} (h : exec .poll s = .next t) : t.gapTimer ≤ s.gapTimer := by
  by_cases hp : PollEnabled s
  · cases execPoll_outcome hp h with
    | waits | sends | drops | rejects => exact le_rfl
    | resumes => exact Nat.zero_le _
    | dispatches _ _ _ _ ht =>
      obtain ⟨-, -, -, hgap, -⟩ := ht.receiver
      exact hgap.le
  · rw [exec_poll_of_not_enabled hp] at h
    cases h
    exact le_rfl

theorem exec_tick_gapTimer {s t : State} (h : exec .tick s = .next t) : t.gapTimer ≤ s.gapTimer := by
  cases hg : gie s with
  | false => rw [exec_tick_frozen hg] at h; cases h; exact le_rfl
  | true => rw [exec_tick_counts hg] at h; cases h; exact Nat.sub_le _ _

theorem exec_txReady_gapTimer {s t : State} (h : exec .txReady s = .next t) : t.gapTimer = s.gapTimer := by
  replace h : execTxReady s = .next t := h
  unfold execTxReady at h
  split at h
  · obtain ⟨b, -, h⟩ := bind_ok (finish_next h)
    obtain ⟨u, hu, h⟩ := bind_ok h
    unfold setTxIndex at hu
    split at hu <;> cases hu
    cases h
    unfold endTransmission
    split <;> rfl
  · cases h; rfl

theorem exec_uartShiftOut_gapTimer {s t : State} (h : exec .uartShiftOut s = .next t) : t.gapTimer = s.gapTimer := by
  replace h : execUartShiftOut s = .next t := h
  unfold execUartShiftOut at h
  split at h <;> cases h <;> rfl

theorem exec_reset_gapTimer {c : ResetSource} {s t : State} (h : exec (.reset c) s = .next t) :
    t.gapTimer ≤ s.gapTimer := by
  replace h : execReset c s = .next t := h
  unfold execReset at h
  split at h <;> cases h
  · exact Nat.zero_le _
  · exact le_rfl

theorem exec_powerFail_gapTimer {d : Bytes} {s t : State} (h : exec (.powerFail d) s = .next t) : t.gapTimer = 0 := by
  obtain ⟨u, -, h⟩ := bind_ok (finish_next h)
  cases h
  rfl

/-- No event but a received byte raises the gap timer, and no frame command does. -/
theorem exec_gapTimer_le {i : Instr} {s t : State} (h : exec i s = .next t) (hi : ∀ b, i ≠ .rxByte b) :
    t.gapTimer ≤ s.gapTimer := by
  rcases frame_or_event s.cfg i with hframe | ⟨e, rfl⟩
  · rw [exec_eq_route hframe] at h
    obtain ⟨-, -, -, hgap, -⟩ := (route_exit h).receiver
    exact hgap.le
  · cases e with
    | rxByte b => exact absurd rfl (hi b)
    | tick => exact exec_tick_gapTimer h
    | poll => exact exec_poll_gapTimer h
    | txReady => exact (exec_txReady_gapTimer h).le
    | uartShiftOut => exact (exec_uartShiftOut_gapTimer h).le
    | flashStep => exact (exec_flashStep_gapTimer h).le
    | reset c => exact exec_reset_gapTimer h
    | powerFail d => exact (exec_powerFail_gapTimer h).trans_le (Nat.zero_le _)

/-- Settles O30: the accepted cases of RX_BYTE arm the timer, its other cases change nothing, and no other instruction
raises it. -/
theorem onlyAcceptedBytesArmTheGapTimer : Obligations.OnlyAcceptedBytesArmTheGapTimer := by
  refine ⟨fun s t b hg hi hb h => exec_rxByte_arms hg hi hb h, fun s t i h hraised => ?_⟩
  by_cases hbyte : ∃ b, i = .rxByte b
  · obtain ⟨b, rfl⟩ := hbyte
    exact ⟨b, rfl, exec_rxByte_changes h fun hsame => by simp [hsame] at hraised⟩
  · exact absurd (exec_gapTimer_le h (not_exists.1 hbyte)) (Nat.not_le.2 hraised)

end Sys2Proof.Machine
end

section
/-! Proofs for 42_transmit: what the composer's operations write, what TX_READY and UART_SHIFT_OUT do, and the outcomes
that an event has for the transmit phase machine, from which its safety, its guard times and its schedule follow. -/

namespace Sys2Proof.Machine

/-! ### The composer (42 R141 to R147) -/

theorem appendBlock_overflow {payload : Bytes} {r : Reply} (h : 4 + r.st.cfg.maxPayload < r.wc + payload.length) :
    appendBlock payload r = .error .replyOverflow := by
  rw [appendBlock, payloadCheck, if_pos h, error_bind]

/-- Settles O21: the five appends are `append_block` of their bytes. -/
theorem appendsWriteTheirBytes : Obligations.AppendsWriteTheirBytes := by
  intro r op bytes hop
  obtain rfl : op = appendBlock bytes := by
    rcases hop with ⟨v, rfl, rfl⟩ | ⟨w, rfl, rfl⟩ | ⟨str, rfl, rfl⟩ | ⟨n, rfl, rfl⟩ | rfl <;> rfl
  refine ⟨appendBlock_overflow, fun hfit hroom => ⟨_, appendBlock_ok hfit hroom, rfl, ?_, fun a ha => ?_⟩⟩
  · exact BufHolds_storeAll r.st r.wc bytes
  · exact Memory.find?_storeAll_other bytes r.st.buf ha

/-- Bytes written behind bytes that the buffer holds extend them. -/
theorem bufHolds_append {s : State} {i : Nat} {front : Bytes} (h : BufHolds s i front) (back : Bytes) :
    BufHolds { s with buf := s.buf.storeAll none (i + front.length) back } i (front ++ back) := by
  intro k hk
  show (s.buf.storeAll none (i + front.length) back).find? (i + k) = _
  rcases Nat.lt_or_ge k front.length with hfront | hback
  · rw [Memory.find?_storeAll_other _ _ (by omega), List.getElem_append_left hfront]
    exact h k hfront
  · have hlen : k - front.length < back.length := by rw [List.length_append] at hk; omega
    rw [List.getElem_append_right hback, ← Memory.find?_storeAll_none (a := i + front.length) back s.buf hlen]
    congr 1
    omega

/-- What `finalize` leaves: the trailer behind the covered bytes, and the pre-turnaround delay armed (42 R147). -/
def finalized (covered : Bytes) (r : Reply) : State :=
  { r.st with
    buf := (r.st.buf.store none 3 (BitVec.ofNat 8 (r.wc + 2))).storeAll none r.wc
      (r.st.cfg.crcField covered ++ [r.st.cfg.endByte])
    txSize := r.wc + 4
    txIndex := 0
    txPhase := .pre
    guardTimer := r.st.cfg.guardPreTicks }

theorem finalize_eq_finalized {r : Reply} {covered : Bytes} (hhead : 4 ≤ r.wc) (hlen : r.wc + 2 ≤ 255)
    (hroom : r.wc + 3 ≤ r.st.cfg.bufSize)
    (hcovered : bufBytes { r.st with buf := r.st.buf.store none 3 (BitVec.ofNat 8 (r.wc + 2)) } 0 r.wc = .ok covered) :
    finalize r = .ok (finalized covered r) := by
  have hfits : ¬ (255 < r.wc + 2 ∨ r.st.cfg.bufSize < r.wc + 2 + 1) := by omega
  simp only [finalize, if_neg hfits, Nat.add_sub_cancel]
  rw [bufStore, if_pos (by omega), ok_bind, hcovered, ok_bind, bufStores_ok (by simp; omega), ok_bind]
  rfl

/-- A composition that can be finalized ends as `finalized` says. -/
theorem finalize_inv {r : Reply} {t : State} (h : finalize r = .ok t) : ∃ covered, t = finalized covered r := by
  simp only [finalize, Nat.add_sub_cancel] at h
  split at h
  · cases h
  · obtain ⟨u, hu, h⟩ := bind_ok h
    obtain ⟨covered, -, h⟩ := bind_ok h
    obtain ⟨v, hv, h⟩ := bind_ok h
    cases bufStores_inv (bs := [_]) (by rw [bufStores, hu, ok_bind, bufStores])
    cases bufStores_inv hv
    cases h
    exact ⟨covered, rfl⟩

/-- The header and the payload, with the length byte between them, are the bytes the CRC covers. -/
theorem written_covered {s : State} {n : Nat} (hhead : Written s 0 3) (hbody : Written s 4 (n - 4)) (len : Byte) :
    Written { s with buf := s.buf.store none 3 len } 0 n := by
  intro k hk
  show ((s.buf.store none 3 len).find? (0 + k)).isSome = true
  rw [Nat.zero_add, Memory.find?_store_none]
  split
  · rfl
  · rcases Nat.lt_or_ge k 3 with hlow | hhigh
    · simpa using hhead k hlow
    · have hbyte := hbody (k - 4) (by omega)
      rwa [show 4 + (k - 4) = k by omega] at hbyte

/-- Settles O20: the covered bytes are those written and the length, and the CRC and END are written behind them. -/
theorem finalizeCompletesTheReply : Obligations.FinalizeCompletesTheReply := by
  intro r ha hlow hhigh hhead hbody
  obtain ⟨hsize, hmax⟩ := admitted_sizes ha
  obtain ⟨covered, hcovered⟩ := bufBytes_written (written_covered hhead hbody (BitVec.ofNat 8 (r.wc + 2)))
  obtain ⟨hlen, hholds⟩ := bufBytes_inv hcovered
  have hbyte {k : Nat} (hk : k < r.wc) :
      (r.st.buf.store none 3 (BitVec.ofNat 8 (r.wc + 2))).find? k = some (covered.getD k 0) := by
    rw [List.getD_eq_getElem _ _ (by omega), ← hholds k (by omega), Nat.zero_add]
  refine ⟨covered, _, finalize_eq_finalized hlow (by omega) (by omega) hcovered, hlen, fun k hk h3 => ?_, ?_, ?_,
    fun a h => ?_, rfl⟩
  · rw [← hbyte hk, Memory.find?_store_none, if_neg h3]
  · have hlength := hbyte (k := 3) (by omega)
    rw [Memory.find?_store_none, if_pos rfl, Option.some.injEq] at hlength
    rw [← hlength, BitVec.toNat_ofNat, Nat.mod_eq_of_lt (by omega)]
  · have hframe := bufHolds_append hholds (r.st.cfg.crcField covered ++ [r.st.cfg.endByte])
    rw [hlen, Nat.zero_add] at hframe
    exact hframe
  · refine (Memory.find?_storeAll_other _ _ (.inr ?_)).trans ?_
    · simp
      omega
    · rw [Memory.find?_store_none, if_neg (by omega)]

/-! ### TX_READY (42 R150) -/

/-- The state in which the UART has taken wire byte `tx_index`. -/
def handedOver (b : Byte) (s : State) : State :=
  { s with uartFifo := s.uartFifo ++ [b], txIndex := s.txIndex + 1 }

@[simp] theorem handedOver_txIndex (b : Byte) (s : State) : (handedOver b s).txIndex = s.txIndex + 1 := rfl
@[simp] theorem handedOver_txSize (b : Byte) (s : State) : (handedOver b s).txSize = s.txSize := rfl

theorem endTransmission_of_last {s : State} (h : s.txIndex = s.txSize) :
    endTransmission s = { s with txIe := false, txPhase := .post, guardTimer := s.cfg.guardPostTicks } := if_pos h

theorem endTransmission_of_more {s : State} (h : s.txIndex ≠ s.txSize) : endTransmission s = s := if_neg h

theorem exec_txReady_hands {s : State} (he : TxReadyEnabled s) (hsize : s.txSize ≤ s.cfg.bufSize + 1) {b : Byte}
    (hb : wireByte s s.txIndex = .ok b) : exec .txReady s = .next (endTransmission (handedOver b s)) := by
  have hidx : s.txIndex + 1 ≤ s.cfg.bufSize + 1 := by
    obtain ⟨-, -, -, hidx, -⟩ := he
    omega
  show execTxReady s = _
  rw [execTxReady, if_pos he, handOverByte, hb, ok_bind, setTxIndex, if_pos hidx, ok_bind]
  rfl

theorem exec_txReady_inv {s t : State} (he : TxReadyEnabled s) (h : exec .txReady s = .next t) :
    ∃ b, wireByte s s.txIndex = .ok b ∧ t = endTransmission (handedOver b s) := by
  replace h : execTxReady s = .next t := h
  rw [execTxReady, if_pos he] at h
  obtain ⟨b, hb, h⟩ := bind_ok (finish_next h)
  obtain ⟨u, hu, h⟩ := bind_ok h
  unfold setTxIndex at hu
  split at hu <;> cases hu
  cases h
  exact ⟨b, hb, rfl⟩

/-- Settles O33: the wire byte is START or a byte of the buffer, and only the last one ends the transmission. -/
theorem txReadyHandsOverOneByte : Obligations.TxReadyHandsOverOneByte := by
  intro s b hg hie hphase hidx hroom hsize hbyte
  have hwire : wireByte s s.txIndex = .ok b := by
    rcases hbyte with ⟨h0, rfl⟩ | ⟨hpos, hbuf⟩
    · rw [h0, wireByte]
    · obtain ⟨k, hk⟩ := Nat.exists_eq_add_one_of_ne_zero (Nat.pos_iff_ne_zero.1 hpos)
      rw [hk, Nat.add_sub_cancel] at hbuf
      rw [hk, wireByte, bufByte_ok hbuf]
  have hexec := exec_txReady_hands ⟨hg, hie, hphase, hidx, hroom⟩ hsize hwire
  refine ⟨fun hmore => ?_, fun hlast => ?_⟩
  · rw [hexec, endTransmission_of_more (by simpa using hmore.ne)]
    rfl
  · rw [hexec, endTransmission_of_last (by simpa using hlast)]
    rfl

/-! ### UART_SHIFT_OUT (42 R151) -/

theorem exec_uartShiftOut_sends {s : State} {b : Byte} {rest : Bytes} (h : s.uartFifo = b :: rest) :
    exec .uartShiftOut s = .next { s with uartFifo := rest, wireOut := s.wireOut ++ [b] } := by
  show execUartShiftOut s = _
  simp only [execUartShiftOut, h]

/-- Settles O34: the rule itself, which does not ask for `gie`. -/
theorem shiftOutSendsTheOldestByte : Obligations.ShiftOutSendsTheOldestByte := fun _ _ _ h => exec_uartShiftOut_sends h

/-- Shifting out moves a byte along the line and changes nothing else of it. -/
theorem exec_uartShiftOut_inv {s t : State} (h : exec .uartShiftOut s = .next t) :
    t = { s with uartFifo := t.uartFifo, wireOut := t.wireOut } ∧ lineBytes t = lineBytes s := by
  cases hf : s.uartFifo with
  | nil =>
    rw [exec_uartShiftOut_of_empty hf] at h
    cases h
    exact ⟨rfl, rfl⟩
  | cons b rest =>
    rw [exec_uartShiftOut_sends hf] at h
    cases h
    exact ⟨rfl, by simp [lineBytes, hf]⟩

/-! ### What the flash engine leaves of the transmit phase (44 R205) -/

/-- A micro-operation of a copy or a block that goes on: only the flash and the engine's position change. -/
inductive EngineMoves (s : State) : State → Prop
  | mk (flash : Memory) (op : FeOp) (seg off : Nat) :
      EngineMoves s { s with flash := flash, feOp := op, feSeg := seg, feOff := off }

theorem EngineMoves.refl (s : State) : EngineMoves s s := .mk _ _ _ _

theorem EngineMoves.trans {s t u : State} (h : EngineMoves s t) (k : EngineMoves t u) : EngineMoves s u := by
  cases h
  cases k
  exact .mk _ _ _ _

theorem EngineMoves.txPhase {s t : State} (h : EngineMoves s t) : t.txPhase = s.txPhase := by
  cases h
  rfl

theorem flashErase_moves {a : Nat} {s t : State} (h : flashErase a s = .ok t) : EngineMoves s t := by
  obtain ⟨rfl, -⟩ := flashErase_inv h
  exact .mk _ _ _ _

theorem flashWriteWord_moves {a : Nat} {w : Word16} {s t : State} (h : flashWriteWord a w s = .ok t) :
    EngineMoves s t := by
  obtain ⟨rfl, -⟩ := flashWriteWord_inv h
  exact .mk _ _ _ _

theorem setFeSeg_moves {n : Nat} {s t : State} (h : setFeSeg n s = .ok t) : EngineMoves s t := by
  unfold setFeSeg at h
  split at h <;> cases h
  exact .mk _ _ _ _

theorem setFeOff_moves {n : Nat} {s t : State} (h : setFeOff n s = .ok t) : EngineMoves s t := by
  unfold setFeOff at h
  split at h <;> cases h
  exact .mk _ _ _ _

theorem copyErase_moves {s t : State} (h : copyErase s = .ok t) : EngineMoves s t := by
  obtain ⟨u, hu, h⟩ := bind_ok h
  cases h
  exact (flashErase_moves hu).trans (.mk _ _ _ _)

theorem copyWord_moves {w : Word16} {s t : State} (h : copyWord w s = .ok t) : EngineMoves s t := by
  unfold copyWord at h
  split at h
  · cases h
    exact .refl s
  · exact flashWriteWord_moves h

theorem copyAdvance_moves {s t : State} (h : copyAdvance s = .ok t) : EngineMoves s t := by
  unfold copyAdvance at h
  split at h
  · obtain ⟨u, hu, h⟩ := bind_ok h
    cases h
    exact (setFeSeg_moves hu).trans (.mk _ _ _ _)
  · cases h
    exact .refl s

theorem copyWrite_moves {s t : State} (h : copyWrite s = .ok t) : EngineMoves s t := by
  obtain ⟨w, -, h⟩ := bind_ok h
  obtain ⟨u, hu, h⟩ := bind_ok h
  obtain ⟨v, hv, h⟩ := bind_ok h
  exact ((copyWord_moves hu).trans (setFeOff_moves hv)).trans (copyAdvance_moves h)

theorem blockErase_moves {s t : State} (h : blockErase s = .ok t) : EngineMoves s t := by
  obtain ⟨u, hu, h⟩ := bind_ok h
  cases h
  exact (flashErase_moves hu).trans (.mk _ _ _ _)

theorem blockWriteWord_moves {s t : State} (h : blockWriteWord s = .ok t) : EngineMoves s t := by
  obtain ⟨lo, -, h⟩ := bind_ok h
  obtain ⟨hi, -, h⟩ := bind_ok h
  obtain ⟨u, hu, h⟩ := bind_ok h
  obtain ⟨v, hv, h⟩ := bind_ok h
  cases h
  exact ((flashWriteWord_moves hu).trans (setFeOff_moves hv)).trans (.mk _ _ _ _)

theorem startupCheck_txPhase {s t : State} (h : startupCheck s = .ok t) : t.txPhase = s.txPhase := by
  obtain ⟨pbad, -, h⟩ := bind_ok h
  obtain ⟨bbad, -, h⟩ := bind_ok h
  match pbad, bbad with
  | true, false | true, true | false, true | false, false => cases h; rfl

theorem selfHealFinish_txPhase {s t : State} (h : selfHealFinish s = .ok t) : t.txPhase = s.txPhase := by
  obtain ⟨bad, -, h⟩ := bind_ok h
  cases bad with
  | true | false => cases h; rfl

/-- A finalized reply waits for the driver: the pre-turnaround delay is armed and every wire byte is in `buf`. -/
structure ReplyArmed (c : Config) (t : State) : Prop where
  phase : t.txPhase = .pre
  guard : t.guardTimer = c.guardPreTicks
  frame : Written t 0 (t.txSize - 1)

theorem replyArmed_replied {c : Config} {s : State} (hc : s.cfg = c) {code source : Byte} {payload : Bytes} :
    ReplyArmed c (replied code source payload s) :=
  ⟨rfl, congrArg Config.guardPreTicks hc, written_replied s code source payload⟩

theorem blockVerify_armed {s t : State} (h : blockVerify s = .ok t) : ReplyArmed s.cfg t := by
  obtain ⟨written, -, h⟩ := bind_ok h
  obtain ⟨sent, -, h⟩ := bind_ok h
  split at h <;>
  · obtain ⟨source, -, -, rfl⟩ := reply_inv h
    exact replyArmed_replied (by rfl)

/-- Only the end of a block write touches the transmitter, by its reply (44 R217). -/
theorem exec_flashStep_txPhase {s t : State} (h : exec .flashStep s = .next t) :
    t.txPhase = s.txPhase ∨ ReplyArmed s.cfg t := by
  replace h : execFlashStep s = .next t := h
  unfold execFlashStep at h
  split at h
  case h_1 => exact .inl (startupCheck_txPhase (finish_next h))
  case h_2 | h_6 => exact .inl (copyErase_moves (finish_next h)).txPhase
  case h_3 | h_7 => exact .inl (copyWrite_moves (finish_next h)).txPhase
  case h_4 => exact .inl (selfHealFinish_txPhase (finish_next h))
  case h_5 | h_9 | h_13 => cases h
  case h_8 | h_14 | h_15 => cases h; exact .inl rfl
  case h_10 => exact .inl (blockErase_moves (finish_next h)).txPhase
  case h_11 => exact .inl (blockWriteWord_moves (finish_next h)).txPhase
  case h_12 => exact .inr (blockVerify_armed (finish_next h))

/-! ### The transmit phase machine (42 R149) -/

/-- What an event can do to the transmitter: it stays in its phase, where the guard timer loses at most the event's tick
and in POST no byte joins or leaves the line; or it takes a transition of the table; or it is a reset. -/
inductive PhaseOutcome (s : State) (e : Event) (t : State) : Prop
  | stays (hphase : t.txPhase = s.txPhase)
      (hguard : s.txPhase ≠ .idle → s.guardTimer ≤ t.guardTimer + [e].count .tick)
      (hline : s.txPhase = .post → lineBytes t = lineBytes s)
  | arms (hidle : s.txPhase = .idle) (he : e = .poll ∨ e = .flashStep) (h : ReplyArmed s.cfg t)
  | drives (hpre : s.txPhase = .pre) (he : e = .poll) (hguard : s.guardTimer = 0)
      (h : t = { polled s with txPhase := .xmit, txIe := true })
  | ends (hxmit : s.txPhase = .xmit) (he : e = .txReady) (b : Byte) (hlast : s.txIndex + 1 = s.txSize)
      (h : t = endTransmission (handedOver b s))
  | resumes (hpost : s.txPhase = .post) (he : e = .poll) (hguard : s.guardTimer = 0) (hfifo : s.uartFifo = [])
      (h : t = resumeReceiving (polled s))
  | resets (he : EventResets e) (h : t.txPhase = .idle)

/-- An event that leaves the phase, the guard timer and the line alone. -/
theorem PhaseOutcome.of_same {s t : State} {e : Event} (hphase : t.txPhase = s.txPhase)
    (hguard : t.guardTimer = s.guardTimer) (hline : lineBytes t = lineBytes s) : PhaseOutcome s e t :=
  .stays hphase (fun _ => by omega) fun _ => hline

/-- While nothing is sent only the phase matters. -/
theorem PhaseOutcome.of_idle {s t : State} {e : Event} (hidle : s.txPhase = .idle) (hphase : t.txPhase = s.txPhase) :
    PhaseOutcome s e t := .stays hphase (fun h => absurd hidle h) fun h => by simp [hidle] at h

theorem RouterExit.phase {s t : State} (h : RouterExit s t) : t.txPhase = s.txPhase ∨ ReplyArmed s.cfg t := by
  cases h with
  | replied code source payload queue draws => exact .inr (replyArmed_replied (by rfl))
  | started | reflashing => exact .inl rfl

theorem exec_poll_phase_of_idle {s t : State} (hp : PollEnabled s) (hidle : s.txPhase = .idle)
    (h : exec .poll s = .next t) : PhaseOutcome s .poll t := by
  cases execPoll_outcome hp h with
  | waits | drops => exact .of_idle hidle rfl
  | sends hpre => simp [hidle] at hpre
  | resumes hpost => simp [hidle] at hpost
  | rejects source => exact .arms hidle (.inl rfl) (replyArmed_replied (by rfl))
  | dispatches source cmd payload _ ht =>
    rcases ht.phase with hphase | harmed
    · exact .of_idle hidle hphase
    · exact .arms hidle (.inl rfl) harmed

theorem exec_poll_phase_of_sending {s t : State} (hp : PollEnabled s) (hsend : s.txPhase ≠ .idle)
    (h : exec .poll s = .next t) : PhaseOutcome s .poll t := by
  rw [exec_poll_of_sending hp hsend] at h
  cases h
  cases hphase : s.txPhase with
  | idle => exact absurd hphase hsend
  | pre =>
    rw [turnaround_of_pre (s := polled s) hphase]
    split
    · rename_i hguard
      exact .drives hphase rfl hguard rfl
    · exact .of_same rfl rfl rfl
  | xmit =>
    rw [turnaround_of_xmit (s := polled s) hphase]
    exact .of_same rfl rfl rfl
  | post =>
    rw [turnaround_of_post (s := polled s) hphase]
    split
    · rename_i hdone
      exact .resumes hphase rfl hdone.1 hdone.2 rfl
    · exact .of_same rfl rfl rfl

theorem exec_poll_phase {s t : State} (h : exec .poll s = .next t) : PhaseOutcome s .poll t := by
  by_cases hp : PollEnabled s
  · by_cases hidle : s.txPhase = .idle
    · exact exec_poll_phase_of_idle hp hidle h
    · exact exec_poll_phase_of_sending hp hidle h
  · rw [exec_poll_of_not_enabled hp] at h
    cases h
    exact .of_same rfl rfl rfl

theorem exec_rxByte_phase {b : Byte} {s t : State} (h : exec (.rxByte b) s = .next t) : PhaseOutcome s (.rxByte b) t := by
  by_cases hne : t = s
  · subst hne
    exact .of_same rfl rfl rfl
  · obtain ⟨hg, hi, hb⟩ := exec_rxByte_changes h hne
    cases ha : s.rxActive with
    | true =>
      rcases Nat.lt_or_ge s.rxCursor s.cfg.bufSize with hroom | hfull
      · rw [exec_rxByte_stored hg hi ha hroom] at h
        cases h
        exact .of_same rfl rfl rfl
      · rw [exec_rxByte_dropped hg hi ha hfull] at h
        cases h
        exact .of_same rfl rfl rfl
    | false =>
      obtain rfl : b = s.cfg.startByte := by simpa [ha] using hb
      rw [exec_rxByte_start hg hi ha] at h
      cases h
      exact .of_same rfl rfl rfl

theorem exec_tick_phase {s t : State} (h : exec .tick s = .next t) : PhaseOutcome s .tick t := by
  cases hg : gie s with
  | false =>
    rw [exec_tick_frozen hg] at h
    cases h
    exact .of_same rfl rfl rfl
  | true =>
    rw [exec_tick_counts hg] at h
    cases h
    exact .stays rfl (fun _ => Nat.le_add_of_sub_le le_rfl) fun _ => rfl

theorem exec_txReady_phase {s t : State} (h : exec .txReady s = .next t) : PhaseOutcome s .txReady t := by
  by_cases he : TxReadyEnabled s
  · obtain ⟨b, -, rfl⟩ := exec_txReady_inv he h
    obtain ⟨-, -, hxmit, -⟩ := he
    by_cases hlast : s.txIndex + 1 = s.txSize
    · exact .ends hxmit rfl b hlast rfl
    · rw [endTransmission_of_more (s := handedOver b s) hlast]
      exact .stays rfl (fun _ => Nat.le_add_right _ _) fun hpost => by simp [hxmit] at hpost
  · rw [exec_txReady_of_not_enabled he] at h
    cases h
    exact .of_same rfl rfl rfl

theorem exec_uartShiftOut_phase {s t : State} (h : exec .uartShiftOut s = .next t) : PhaseOutcome s .uartShiftOut t := by
  obtain ⟨ht, hline⟩ := exec_uartShiftOut_inv h
  refine .of_same ?_ ?_ hline <;> rw [ht]

theorem exec_flashStep_phase {s t : State} (hinv : Inv s) (h : exec .flashStep s = .next t) :
    PhaseOutcome s .flashStep t := by
  by_cases hbusy : s.feState = .idle
  · rw [exec_flashStep_of_not_enabled (by simp [FlashStepEnabled, hbusy])] at h
    cases h
    exact .of_same rfl rfl rfl
  · have hidle := (hinv.quiet_of_busy hbusy).silent
    rcases exec_flashStep_txPhase h with hphase | harmed
    · exact .of_idle hidle hphase
    · exact .arms hidle (.inr rfl) harmed

theorem exec_reset_txPhase {c : ResetSource} {s t : State} (he : ResetEnabled c s) (h : exec (.reset c) s = .next t) :
    t.txPhase = .idle := by
  replace h : execReset c s = .next t := h
  rw [execReset, if_pos he] at h
  cases h
  rfl

theorem exec_reset_phase {c : ResetSource} {s t : State} (h : exec (.reset c) s = .next t) :
    PhaseOutcome s (.reset c) t := by
  by_cases he : ResetEnabled c s
  · exact .resets (.inl ⟨c, rfl⟩) (exec_reset_txPhase he h)
  · rw [exec_reset_of_not_enabled he] at h
    cases h
    exact .of_same rfl rfl rfl

theorem exec_powerFail_txPhase {d : Bytes} {s t : State} (h : exec (.powerFail d) s = .next t) : t.txPhase = .idle := by
  obtain ⟨u, -, h⟩ := bind_ok (finish_next h)
  cases h
  rfl

theorem exec_event_phase {s t : State} {e : Event} (hinv : Inv s) (h : exec e.instr s = .next t) :
    PhaseOutcome s e t := by
  cases e with
  | rxByte b => exact exec_rxByte_phase h
  | tick => exact exec_tick_phase h
  | poll => exact exec_poll_phase h
  | txReady => exact exec_txReady_phase h
  | uartShiftOut => exact exec_uartShiftOut_phase h
  | flashStep => exact exec_flashStep_phase hinv h
  | reset c => exact exec_reset_phase h
  | powerFail d => exact .resets (.inr ⟨d, rfl⟩) (exec_powerFail_txPhase h)

theorem de_eq_true_iff (s : State) : de s = true ↔ s.txPhase = .xmit ∨ s.txPhase = .post := by simp [de]

theorem de_of_idle {s : State} (h : s.txPhase = .idle) : de s = false := by simp [de, h]

/-- A reset that is enabled completes with the driver released (70 R270, R272). -/
theorem exec_reset_releases {s : State} {e : Event} (hinv : Inv s) (hreset : EventResets e)
    (hwatchdog : e = .reset .watchdog → s.feState = .rebooted) :
    ∃ t, exec e.instr s = .next t ∧ t.txPhase = .idle ∧ de t = false := by
  obtain ⟨t, ht, -⟩ := exec_event_keeps hinv e
  have hidle : t.txPhase = .idle := by
    rcases hreset with ⟨c, rfl⟩ | ⟨d, rfl⟩
    · exact exec_reset_txPhase (fun hc => hwatchdog (by rw [hc])) ht
    · exact exec_powerFail_txPhase ht
  exact ⟨t, ht, hidle, de_of_idle hidle⟩

/-- Settles O35: the outcomes of an event give the table, and each transition is the rule of its operation. -/
theorem transmitPhaseTransitions : Obligations.TransmitPhaseTransitions := by
  refine ⟨de_eq_true_iff, fun s t e hinv h hne => ?_, fun r t h => ?_, fun s hp hpre hguard => ?_,
    fun s hinv he hlast => ?_, fun s hp hpost hguard hfifo => ?_, fun s e => exec_reset_releases⟩
  · cases exec_event_phase hinv h with
    | stays hphase => exact absurd hphase hne
    | arms hidle he harmed => exact .inl ⟨hidle, harmed.phase, he, harmed.guard, harmed.frame⟩
    | drives hpre he hguard ht => subst ht; exact .inr (.inl ⟨hpre, rfl, he, hguard, rfl⟩)
    | ends hxmit he b hlast ht =>
      rw [endTransmission_of_last (s := handedOver b s) hlast] at ht
      subst ht
      exact .inr (.inr (.inl ⟨hxmit, rfl, he, hlast, rfl, rfl⟩))
    | resumes hpost he hguard hfifo ht =>
      subst ht
      exact .inr (.inr (.inr (.inl ⟨hpost, rfl, he, hguard, hfifo, rfl, rfl, rfl, rfl, rfl⟩)))
    | resets he hidle => exact .inr (.inr (.inr (.inr ⟨hidle, he⟩)))
  · obtain ⟨covered, rfl⟩ := finalize_inv h
    exact ⟨rfl, rfl⟩
  · refine ⟨_, exec_poll_of_sending hp (by simp [hpre]), ?_⟩
    rw [turnaround_of_pre (s := polled s) hpre, if_pos hguard]
    exact ⟨rfl, rfl, rfl⟩
  · have hready := he
    obtain ⟨-, -, hxmit, hidx, -⟩ := hready
    obtain ⟨b, hb⟩ := wireByte_ok (hinv.reply_pending (by simp [hxmit])) hidx
    refine ⟨_, exec_txReady_hands he hinv.types.tx_size hb, ?_⟩
    rw [endTransmission_of_last (s := handedOver b s) hlast]
    exact ⟨rfl, rfl, rfl⟩
  · refine ⟨_, exec_poll_of_sending hp (by simp [hpost]), ?_⟩
    rw [turnaround_of_post (s := polled s) hpost, if_pos ⟨hguard, hfifo⟩]
    exact ⟨rfl, rfl, rfl, rfl, rfl, rfl, rfl⟩

/-! ### Driver-enable safety (42 R155) -/

theorem PhaseOutcome.driver_rises {s t : State} {e : Event} (h : PhaseOutcome s e t) (hs : de s = false)
    (ht : de t = true) : e = .poll ∧ s.txPhase = .pre := by
  cases h with
  | drives hpre he => exact ⟨he, hpre⟩
  | stays hphase =>
    have hsame : de t = de s := by rw [de, hphase, de]
    simp [hsame, hs] at ht
  | arms _ _ harmed => simp [de, harmed.phase] at ht
  | ends hxmit => simp [de, hxmit] at hs
  | resumes hpost => simp [de, hpost] at hs
  | resets _ hidle => simp [de, hidle] at ht

/-- Settles O36: a byte that leaves comes from a UART that is not empty, and the driver rises in the transition to XMIT
alone. -/
theorem driverEnableIsSafe : Obligations.DriverEnableIsSafe := by
  intro s t e hinv h
  refine ⟨fun hsent => ?_, fun hde => ?_, fun hs ht => ?_⟩
  · rcases (exec_records h).wire_out with hsame | ⟨-, b, rest, hfifo, -⟩
    · exact absurd hsame hsent
    · exact (de_eq_true_iff s).2 (hinv.fifo_phase (by simp [hfifo]))
  · exact hinv.deaf_of_sending fun hidle => by simp [de_of_idle hidle] at hde
  · obtain ⟨he, hpre⟩ := (exec_event_phase hinv h).driver_rises hs ht
    exact ⟨he, hpre, hinv.deaf_of_sending (by simp [hpre])⟩

/-! ### Runs of events -/

theorem Inv.of_event {s t : State} {e : Event} (hinv : Inv s) (h : exec e.instr s = .next t) : Inv t := by
  obtain ⟨u, hu, hinv'⟩ := exec_event_keeps hinv e
  rw [h] at hu
  cases hu
  exact hinv'

theorem runEvents_cons {e : Event} {es : List Event} {s t : State} (h : runEvents (e :: es) s = .next t) :
    ∃ u, exec e.instr s = .next u ∧ runEvents es u = .next t := by
  rw [runEvents] at h
  split at h
  · exact ⟨_, by assumption, h⟩
  · cases h
  · cases h

theorem exec_wireOut_grows {i : Instr} {s t : State} (h : exec i s = .next t) : s.wireOut <+: t.wireOut := by
  rcases (exec_records h).wire_out with hsame | ⟨-, b, rest, -, hsent⟩
  · rw [hsame]
  · rw [hsent]
    exact ⟨[b], rfl⟩

/-- What is on the bus stays there over every run. -/
theorem runEvents_wireOut_grows {es : List Event} {s t : State} (h : runEvents es s = .next t) :
    s.wireOut <+: t.wireOut := by
  induction es generalizing s with
  | nil => cases h; exact ⟨[], List.append_nil _⟩
  | cons e es ih =>
    obtain ⟨u, hu, h⟩ := runEvents_cons h
    exact (exec_wireOut_grows hu).trans (ih h)

/-! ### The guard times (42 R156) -/

/-- Without a reset PRE and POST are left only once the guard timer has run out, and POST only with the UART drained. -/
theorem PhaseOutcome.guard_expired {s t : State} {e : Event} (h : PhaseOutcome s e t) (hreset : ¬ EventResets e)
    (hguarded : s.txPhase = .pre ∨ s.txPhase = .post) (hne : t.txPhase ≠ s.txPhase) :
    s.guardTimer = 0 ∧ (s.txPhase = .post → s.uartFifo = []) := by
  cases h with
  | stays hphase => exact absurd hphase hne
  | drives hpre _ hguard => exact ⟨hguard, fun hpost => by simp [hpre] at hpost⟩
  | resumes _ _ hguard hfifo => exact ⟨hguard, fun _ => hfifo⟩
  | arms hidle => simp [hidle] at hguarded
  | ends hxmit => simp [hxmit] at hguarded
  | resets he => exact absurd he hreset

/-- An event that leaves the phase as it is takes at most its own tick from the guard timer, and in POST leaves the line
as it is. -/
theorem PhaseOutcome.guarded {s t : State} {e : Event} (h : PhaseOutcome s e t)
    (hguarded : s.txPhase = .pre ∨ s.txPhase = .post) (hsame : t.txPhase = s.txPhase) (hreset : ¬ EventResets e) :
    s.guardTimer ≤ t.guardTimer + [e].count .tick ∧ (s.txPhase = .post → lineBytes t = lineBytes s) := by
  cases h with
  | stays _ hguard hline => exact ⟨hguard (by rcases hguarded with h | h <;> simp [h]), hline⟩
  | resets he => exact absurd he hreset
  | arms hidle => simp [hidle] at hguarded
  | ends hxmit => simp [hxmit] at hguarded
  | drives hpre _ _ ht => simp [ht, hpre] at hsame
  | resumes hpost _ _ _ ht => simp [ht, hpost] at hsame

theorem guardTimer_le_count_tick {es : List Event} {s t : State} (hinv : Inv s) (h : runEvents es s = .next t)
    (hreset : ∀ e ∈ es, ¬ EventResets e) (hguarded : s.txPhase = .pre ∨ s.txPhase = .post)
    (hleft : t.txPhase ≠ s.txPhase) : s.guardTimer ≤ es.count .tick := by
  induction es generalizing s with
  | nil => cases h; exact absurd rfl hleft
  | cons e es ih =>
    obtain ⟨u, hu, h⟩ := runEvents_cons h
    have hinv' := hinv.of_event hu
    obtain ⟨hreset, hresets⟩ := List.forall_mem_cons.1 hreset
    have houtcome := exec_event_phase hinv hu
    by_cases hsame : u.txPhase = s.txPhase
    · obtain ⟨hguard, -⟩ := houtcome.guarded hguarded hsame hreset
      have hrest := ih hinv' h hresets (by rwa [hsame]) (by rwa [hsame])
      have hcount : (e :: es).count .tick = [e].count .tick + es.count .tick := List.count_append (l₁ := [e])
      omega
    · rw [(houtcome.guard_expired hreset hguarded hsame).1]
      exact Nat.zero_le _

/-- Once POST is left, every byte that was on the line in it has reached the bus. -/
theorem lineBytes_reaches_wireOut {es : List Event} {s t : State} (hinv : Inv s) (h : runEvents es s = .next t)
    (hreset : ∀ e ∈ es, ¬ EventResets e) (hpost : s.txPhase = .post) (hleft : t.txPhase ≠ .post) :
    lineBytes s <+: t.wireOut := by
  induction es generalizing s with
  | nil => cases h; exact absurd hpost hleft
  | cons e es ih =>
    obtain ⟨u, hu, h⟩ := runEvents_cons h
    have hinv' := hinv.of_event hu
    obtain ⟨hreset, hresets⟩ := List.forall_mem_cons.1 hreset
    have houtcome := exec_event_phase hinv hu
    by_cases hsame : u.txPhase = s.txPhase
    · rw [← (houtcome.guarded (.inr hpost) hsame hreset).2 hpost]
      exact ih hinv' h hresets (hsame.trans hpost)
    · have hdrained : s.uartFifo = [] := (houtcome.guard_expired hreset (.inr hpost) hsame).2 hpost
      rw [lineBytes, hdrained, List.append_nil]
      exact (exec_wireOut_grows hu).trans (runEvents_wireOut_grows h)

/-- Settles O38: the guards are armed by the transitions into PRE and POST, and the other part is an induction over the
run, in which every event takes at most its own tick from the timer. -/
theorem guardTicksElapse : Obligations.GuardTicksElapse := by
  refine ⟨fun s t e hinv h hne => ?_, fun s t es hinv h hreset => ⟨fun hpre hleft => ?_, fun hpost hleft => ⟨?_, ?_⟩⟩⟩
  · cases exec_event_phase hinv h with
    | stays hphase => exact absurd hphase.symm hne
    | arms _ _ harmed => exact ⟨fun _ => harmed.guard, fun hpost => by simp [harmed.phase] at hpost⟩
    | drives _ _ _ ht => subst ht; exact ⟨nofun, nofun⟩
    | ends _ _ b hlast ht =>
      rw [endTransmission_of_last (s := handedOver b s) hlast] at ht
      subst ht
      exact ⟨nofun, fun _ => rfl⟩
    | resumes _ _ _ _ ht => subst ht; exact ⟨nofun, nofun⟩
    | resets _ hidle => simp [hidle]
  · exact guardTimer_le_count_tick hinv h hreset (.inl hpre) (by rwa [hpre])
  · exact guardTimer_le_count_tick hinv h hreset (.inr hpost) (by rwa [hpost])
  · obtain ⟨more, hmore⟩ := lineBytes_reaches_wireOut hinv h hreset hpost hleft
    exact ⟨more, hmore.symm⟩

/-! ### The schedule of the wire bytes (42 R157) -/

/-- The reply `frame` is being sent behind `sent`, which was on the bus before it: the line holds the wire bytes handed
over so far, and POST stands for all of them. -/
structure Sending (start : Byte) (frame sent : Bytes) (s : State) : Prop where
  start_byte : s.cfg.startByte = start
  size : s.txSize = frame.length + 1
  holds : BufHolds s 0 frame
  index : s.txIndex ≤ s.txSize
  phase : s.txPhase = if s.txIndex = s.txSize then .post else .xmit
  line : lineBytes s = sent ++ (start :: frame).take s.txIndex

theorem wireByte_of_holds {s : State} {frame : Bytes} (h : BufHolds s 0 frame) {k : Nat}
    (hk : k < (s.cfg.startByte :: frame).length) : wireByte s k = .ok (s.cfg.startByte :: frame)[k] := by
  cases k with
  | zero => rfl
  | succ k =>
    have hbyte := h k (Nat.lt_of_succ_lt_succ hk)
    rw [Nat.zero_add] at hbyte
    exact bufByte_ok hbyte

theorem lineBytes_handedOver (b : Byte) (s : State) : lineBytes (handedOver b s) = lineBytes s ++ [b] :=
  (List.append_assoc _ _ _).symm

theorem Sending.handsOver {start : Byte} {frame sent : Bytes} {s : State} (h : Sending start frame sent s)
    (he : TxReadyEnabled s) {b : Byte} (hb : wireByte s s.txIndex = .ok b) :
    Sending start frame sent (endTransmission (handedOver b s)) := by
  obtain ⟨rfl, hsize, hholds, -, -, hline⟩ := h
  obtain ⟨-, -, hxmit, hidx, -⟩ := he
  have hk : s.txIndex < (s.cfg.startByte :: frame).length := by rw [List.length_cons, ← hsize]; exact hidx
  have hnext : lineBytes (handedOver b s) = sent ++ (s.cfg.startByte :: frame).take (s.txIndex + 1) := by
    rw [wireByte_of_holds hholds hk, Except.ok.injEq] at hb
    rw [lineBytes_handedOver, hline, ← hb, List.append_assoc, List.take_append_getElem hk]
  by_cases hlast : s.txIndex + 1 = s.txSize
  · rw [endTransmission_of_last (s := handedOver b s) hlast]
    exact ⟨rfl, hsize, hholds, hidx, (if_pos hlast).symm, hnext⟩
  · rw [endTransmission_of_more (s := handedOver b s) hlast]
    exact ⟨rfl, hsize, hholds, hidx, hxmit.trans (if_neg hlast).symm, hnext⟩

theorem Sending.step {start : Byte} {frame sent : Bytes} {s t : State} {e : Event} (h : Sending start frame sent s)
    (he : e = .txReady ∨ e = .uartShiftOut ∨ e = .tick) (ht : exec e.instr s = .next t) :
    Sending start frame sent t := by
  rcases he with rfl | rfl | rfl
  · by_cases hready : TxReadyEnabled s
    · obtain ⟨b, hb, rfl⟩ := exec_txReady_inv hready ht
      exact h.handsOver hready hb
    · rw [Event.instr, exec_txReady_of_not_enabled hready] at ht
      cases ht
      exact h
  · obtain ⟨hsame, hline⟩ := exec_uartShiftOut_inv ht
    rw [hsame] at hline ⊢
    exact { h with line := hline.trans h.line }
  · cases hg : gie s with
    | false =>
      rw [Event.instr, exec_tick_frozen hg] at ht
      cases ht
      exact h
    | true =>
      rw [Event.instr, exec_tick_counts hg] at ht
      cases ht
      exact { h with }

theorem Sending.run {start : Byte} {frame sent : Bytes} {s t : State} {es : List Event} (h : Sending start frame sent s)
    (hes : ∀ e ∈ es, e = .txReady ∨ e = .uartShiftOut ∨ e = .tick) (ht : runEvents es s = .next t) :
    Sending start frame sent t := by
  induction es generalizing s with
  | nil => cases ht; exact h
  | cons e es ih =>
    obtain ⟨u, hu, ht⟩ := runEvents_cons ht
    obtain ⟨he, hes⟩ := List.forall_mem_cons.1 hes
    exact ih (h.step he hu) hes ht

/-- Settles O37: `Sending` holds at the start of XMIT and over every such run, and says what the line then holds. -/
theorem wireBytesDoNotDependOnTheSchedule : Obligations.WireBytesDoNotDependOnTheSchedule := by
  intro s t frame es hxmit hidx hfifo hsize hholds hes h
  have hstart : Sending s.cfg.startByte frame s.wireOut s := by
    refine ⟨rfl, hsize, hholds, by omega, ?_, ?_⟩
    · rw [hxmit, if_neg (by omega)]
    · simp [lineBytes, hfifo, hidx]
  obtain ⟨-, hsize', -, hindex, hphase, hline⟩ := hstart.run hes h
  have hpost : t.txPhase = .post ↔ t.txIndex = frame.length + 1 := by
    by_cases hall : t.txIndex = frame.length + 1 <;> simp [hphase, hsize', hall]
  refine ⟨hindex, hline, hpost, fun hdone hempty => ?_⟩
  rw [hpost.1 hdone, List.take_of_length_le (List.length_cons ..).le] at hline
  rwa [lineBytes, hempty, List.append_nil] at hline

end Sys2Proof.Machine
end

section
/-! Proofs for 43_dispatch: the exact next state of each router row once a request stands in the buffer, that every row
then completes, and the exit it takes. -/

namespace Sys2Proof.Machine

/-! ### Replies to a served request (42 R140 to R147) -/

/-- The identity strings of an admitted configuration fit a reply with their terminator (00 R9). -/
theorem admitted_strings {c : Config} (h : c.Admitted) :
    Config.StringOk c.fwIdStr ∧ Config.StringOk c.compilerStr ∧ Config.StringOk c.targetStr := by
  obtain ⟨-, ⟨-, -, -, -, -, hstrings⟩, -⟩ := h
  exact hstrings

section Served

variable {s : State} {source : Byte}

theorem reply_served (h : Served s source) (code : Byte) {payload : Bytes} (hn : payload.length ≤ 249) :
    reply code payload s = .ok (replied code source payload s) := by
  obtain ⟨ha, hs⟩ := h
  exact reply_ok (canReply_of_admitted ha (by simp [hs]) hn) hs

theorem replyString_served (h : Served s source) (code : Byte) {str : Bytes} (hn : str.length ≤ 248) :
    replyString code str s = .ok (replied code source (terminated str) s) :=
  reply_served h code (by simpa [terminated] using Nat.succ_le_succ hn)

theorem replyStatus_served (h : Served s source) (status : Byte) :
    replyStatus status s = .ok (replied s.cfg.ackCode source [status] s) :=
  reply_served (payload := [status]) h _ (Nat.le_add_left 1 248)

/-! ### The rows that always reply (43 R171 to R178, R181) -/

theorem degradedControls_control (ctrl : Bytes) (s : State) :
    degradedControls (s.cfg.locControlStatus :: ctrl) s = emit (.ctrl ctrl) s := if_pos rfl

theorem degradedControls_other {payload : Bytes} (h : payload.head? ≠ some s.cfg.locControlStatus) :
    degradedControls payload s = s := by
  cases payload with
  | nil => rfl
  | cons loc ctrl => exact if_neg fun hloc => h (congrArg some hloc)

theorem exec_degradedRead (h : Served s source) (payload : Bytes) :
    exec (.degradedRead payload) s =
      .next (replied s.cfg.nackCode source (terminated Config.badCrcText) s) :=
  congrArg finish (replyString_served h _ (by decide))

theorem exec_degradedWriteThenRead (h : Served s source) (payload : Bytes) :
    exec (.degradedWriteThenRead payload) s =
      .next (replied s.cfg.nackCode source (terminated Config.badCrcText) (degradedControls payload s)) := by
  obtain ⟨records, hcontrols⟩ := degradedControls_records payload s
  have hserved : Served { s with hostLog := records } source := h
  show finish (degradedReply (degradedControls payload s)) = _
  rw [hcontrols]
  exact congrArg finish (replyString_served hserved _ (by decide))

theorem exec_emptyPayload (h : Served s source) (cmd : Byte) :
    exec (.emptyPayload cmd) s = .next (replied s.cfg.nackCode source [] s) :=
  congrArg finish (reply_served h _ (Nat.zero_le _))

theorem exec_unknownPair (h : Served s source) (cmd loc : Byte) (rest : Bytes) :
    exec (.unknownPair cmd loc rest) s = .next (replied s.cfg.nackCode source [] s) :=
  congrArg finish (reply_served h _ (Nat.zero_le _))

theorem identityReply_served (h : Served s source) {str : Bytes} (hstr : Config.StringOk str) :
    identityReply str s = .ok (replied s.cfg.ackCode source (str ++ [0x00]) s) := by
  obtain ⟨-, hlen⟩ := hstr
  exact replyString_served h _ hlen

theorem exec_readFwId (h : Served s source) (extra : Bytes) :
    exec (.readFwId extra) s = .next (replied s.cfg.ackCode source (s.cfg.fwIdStr ++ [0x00]) s) := by
  obtain ⟨hfw, -, -⟩ := admitted_strings h.1
  exact congrArg finish (identityReply_served h hfw)

theorem exec_readCompiler (h : Served s source) (extra : Bytes) :
    exec (.readCompiler extra) s = .next (replied s.cfg.ackCode source (s.cfg.compilerStr ++ [0x00]) s) := by
  obtain ⟨-, hcompiler, -⟩ := admitted_strings h.1
  exact congrArg finish (identityReply_served h hcompiler)

theorem exec_readTarget (h : Served s source) (extra : Bytes) :
    exec (.readTarget extra) s = .next (replied s.cfg.ackCode source (s.cfg.targetStr ++ [0x00]) s) := by
  obtain ⟨-, -, htarget⟩ := admitted_strings h.1
  exact congrArg finish (identityReply_served h htarget)

theorem exec_writeControlStatus (h : Served s source) (ctrl : Bytes) :
    exec (.writeControlStatus ctrl) s = .next (replied s.cfg.ackCode source [] (emit (.ctrl ctrl) s)) :=
  congrArg finish (reply_served (s := emit (.ctrl ctrl) s) h _ (Nat.zero_le _))

/-! ### The block-write arbiter (43 R179, 44 R214) -/

theorem blockFields_eq_none {block : Bytes}
    (h : block.length + 1 < 4 ∨ block.length + 1 ≠ 4 + (block.getD 2 0).toNat) : blockFields block = none := by
  match block with
  | [] | [_] | [_, _] => rfl
  | _ :: _ :: n :: data =>
    refine if_neg fun hdata : data.length = n.toNat => ?_
    simp only [List.length_cons, List.getD_cons_succ, List.getD_cons_zero] at h
    omega

theorem blockFields_of_length (lo hi : Byte) {n : Byte} {data : Bytes} (h : data.length = n.toNat) :
    blockFields (lo :: hi :: n :: data) = some (le16 lo hi, n, data) := if_pos h

theorem exec_writeFwBlock_malformed (h : Served s source) {block : Bytes} (hfields : blockFields block = none) :
    exec (.writeFwBlock block) s = .next (replied s.cfg.nackCode source [] s) := by
  show execWriteFwBlock block s = _
  rw [execWriteFwBlock, hfields]
  exact congrArg finish (reply_served h _ (Nat.zero_le _))

theorem exec_writeFwBlock_rejected (h : Served s source) {block data : Bytes} {addr : Word16} {len : Byte}
    (hfields : blockFields block = some (addr, len, data)) (haddr : ¬ BlockAddressOk s.cfg addr len) :
    exec (.writeFwBlock block) s = .next (replied s.cfg.ackCode source [s.cfg.stBadAddress] s) := by
  show execWriteFwBlock block s = _
  rw [execWriteFwBlock, hfields]
  exact (if_neg haddr).trans (congrArg finish (replyStatus_served h _))

theorem exec_writeFwBlock_started {block data : Bytes} {addr : Word16} {len : Byte}
    (hfields : blockFields block = some (addr, len, data)) (haddr : BlockAddressOk s.cfg addr len) :
    exec (.writeFwBlock block) s = .next (startBlockWrite addr len s) := by
  show execWriteFwBlock block s = _
  rw [execWriteFwBlock, hfields]
  exact if_pos haddr

/-! ### The reflash trigger (43 R180, 44 R207) -/

/-- The check of the backup is the comparison of 40 R114. -/
theorem imageInvalid_origin (ha : s.cfg.Admitted) :
    imageInvalid s s.cfg.originBase = .ok (decide (ImageBad s s.cfg.originBase)) := by
  obtain ⟨-, -, hlen, -, -, -, -, hbase, hfit, hend, -⟩ := admitted_geometry ha
  rw [imageInvalid_ok (by omega) ⟨hbase, by omega⟩]
  exact congrArg Except.ok (Bool.eq_iff_iff.2 (bne_iff_ne.trans decide_eq_true_iff.symm))

theorem exec_writeReflash_refused (h : Served s source) (hbad : ImageBad s s.cfg.originBase) (extra : Bytes) :
    exec (.writeReflash extra) s = .next (replied s.cfg.ackCode source [s.cfg.stBadCrc] s) := by
  show finish (reflashTrigger s) = _
  rw [reflashTrigger, imageInvalid_origin h.1, decide_eq_true hbad]
  exact congrArg finish (replyStatus_served h _)

theorem exec_writeReflash_started (h : Served s source) (hgood : ¬ ImageBad s s.cfg.originBase) (extra : Bytes) :
    exec (.writeReflash extra) s = .next (enterCopy .reflashing s) := by
  show finish (reflashTrigger s) = _
  rw [reflashTrigger, imageInvalid_origin h.1, decide_eq_false hgood]
  rfl

/-! ### Every row completes (43 R170) -/

theorem exec_writeFwBlock_completes (h : Served s source) (block : Bytes) :
    ∃ t, exec (.writeFwBlock block) s = .next t := by
  cases hfields : blockFields block with
  | none => exact ⟨_, exec_writeFwBlock_malformed h hfields⟩
  | some fields =>
    obtain ⟨addr, len, data⟩ := fields
    by_cases haddr : BlockAddressOk s.cfg addr len
    · exact ⟨_, exec_writeFwBlock_started hfields haddr⟩
    · exact ⟨_, exec_writeFwBlock_rejected h hfields haddr⟩

theorem exec_writeReflash_completes (h : Served s source) (extra : Bytes) :
    ∃ t, exec (.writeReflash extra) s = .next t := by
  by_cases hbad : ImageBad s s.cfg.originBase
  · exact ⟨_, exec_writeReflash_refused h hbad extra⟩
  · exact ⟨_, exec_writeReflash_started h hbad extra⟩

theorem exec_completes (h : Served s source) {i : Instr} (hi : (i.frame s.cfg).isSome = true) :
    ∃ t, exec i s = .next t := by
  cases i with
  | degradedRead payload => exact ⟨_, exec_degradedRead h payload⟩
  | degradedWriteThenRead payload => exact ⟨_, exec_degradedWriteThenRead h payload⟩
  | emptyPayload cmd => exact ⟨_, exec_emptyPayload h cmd⟩
  | readFwId extra => exact ⟨_, exec_readFwId h extra⟩
  | readCompiler extra => exact ⟨_, exec_readCompiler h extra⟩
  | readTarget extra => exact ⟨_, exec_readTarget h extra⟩
  | readControlStatus extra => exact ⟨_, congrArg finish (snapshotReply_served h)⟩
  | writeControlStatus ctrl => exact ⟨_, exec_writeControlStatus h ctrl⟩
  | writeThenReadControlStatus ctrl =>
    exact ⟨_, congrArg finish (snapshotReply_served (s := emit (.ctrl ctrl) s) h)⟩
  | writeFwBlock block => exact exec_writeFwBlock_completes h block
  | writeReflash extra => exact exec_writeReflash_completes h extra
  | unknownPair cmd loc rest => exact ⟨_, exec_unknownPair h cmd loc rest⟩
  | rxByte | tick | poll | txReady | uartShiftOut | flashStep | reset | powerFail => cases hi

end Served

/-! ### A frame that has arrived (41 R130) -/

theorem served_of_frameArrived {s : State} {frame : Bytes} (h : FrameArrived s frame) (ha : s.cfg.Admitted) :
    Served s (frame.getD 0 0) := by
  obtain ⟨-, -, -, hholds, -, -, h7⟩ := h
  refine ⟨ha, ?_⟩
  rw [List.getD_eq_getElem _ _ (by omega)]
  exact hholds 0 (by omega)

/-- A complete frame that decodes gives the instruction whose payload stands behind its header (30 R81). -/
theorem frame_of_decodeFrame {c : Config} (hc : c.CodesOk) {flashErr : Bool} {frame : Bytes} {i : Instr}
    (h7 : 7 ≤ frame.length) (hlen : frame.length = (frame.getD 3 0).toNat + 1)
    (h : decodeFrame c flashErr frame = .ok i) :
    i.frame c = some (frame.getD 2 0, (frame.drop 4).take (frame.length - 7)) := by
  rw [decodeFrame_of_complete h7 hlen] at h
  split at h
  · cases h
  · split at h
    · cases h
    · split at h
      · cases h
      · cases h
        exact (decodeCommand_frame_wf hc _ _ _).1

/-- What follows the location byte in a complete frame's payload. -/
theorem payload_after_location {frame rest : Bytes} {loc : Byte}
    (h : (frame.drop 4).take (frame.length - 7) = loc :: rest) : rest = (frame.drop 5).take (frame.length - 8) := by
  have htail := congrArg List.tail h
  rw [← List.drop_one, List.drop_take, List.drop_drop, List.tail_cons] at htail
  exact htail.symm

/-! ### The obligations on the router -/

/-- Settles O9, by the two degraded rows and the controls that the second one applies. -/
theorem degradedReadsGetBadCrc : Obligations.DegradedReadsGetBadCrc := by
  intro s source h
  have hcodes : s.cfg.CodesOk := h.1.1
  obtain ⟨hread, -, hwriteRead⟩ := commands_distinct hcodes
  refine ⟨fun payload => ⟨decodeCommand_degradedRead payload, decodeCommand_degradedWriteThenRead hcodes payload,
    decodeCommand_of_not_degraded ?_ payload⟩, exec_degradedRead h, fun ctrl => ?_, fun payload hother => ?_⟩
  · rintro ⟨-, hcmd | hcmd⟩
    · exact hread hcmd.symm
    · exact hwriteRead hcmd
  · rw [exec_degradedWriteThenRead h, degradedControls_control]
    rfl
  · rw [exec_degradedWriteThenRead h, degradedControls_other hother]
    rfl

/-- Settles O10: the two rows' replies, and the opcode map where row 1 does not apply. -/
theorem emptyAndUnknownCommandsGetANack : Obligations.EmptyAndUnknownCommandsGetANack := by
  intro s source h
  refine ⟨exec_emptyPayload h, exec_unknownPair h, fun flashErr cmd hd => ?_⟩
  simp only [decodeCommand_of_not_degraded hd]
  exact ⟨decodeCommand_nil cmd, fun loc rest hpair => decodePair_unknown hpair rest⟩

/-- Settles O11, row by row. -/
theorem identityReadsReturnTheirStrings : Obligations.IdentityReadsReturnTheirStrings := by
  intro s source h
  have hcodes : s.cfg.CodesOk := h.1.1
  exact ⟨fun rest => ⟨decodePair_readFwId rest, decodePair_readCompiler hcodes rest, decodePair_readTarget hcodes rest⟩,
    exec_readFwId h, exec_readCompiler h, exec_readTarget h⟩

/-- Settles O13: a WRITE is not degraded, and the reply is composed after the record CTRL. -/
theorem writeControlStatusAppliesTheControls : Obligations.WriteControlStatusAppliesTheControls := by
  intro s source ctrl h
  have hcodes : s.cfg.CodesOk := h.1.1
  obtain ⟨hread, -, hwriteRead⟩ := commands_distinct hcodes
  refine ⟨fun flashErr => ?_, exec_writeControlStatus h ctrl⟩
  rw [decodeCommand_of_not_degraded (by simp [hread.symm, hwriteRead])]
  exact decodePair_writeControlStatus hcodes ctrl

/-- Settles O15, by the three outcomes of the arbiter. -/
theorem firmwareBlockIsArbitrated : Obligations.FirmwareBlockIsArbitrated := by
  intro s source h
  refine ⟨fun block hsize => exec_writeFwBlock_malformed h (blockFields_eq_none hsize),
    fun lo hi n data hdata => ⟨fun hbad => ?_, fun heven hbase htop => ?_⟩, by decide⟩
  · refine exec_writeFwBlock_rejected h (blockFields_of_length lo hi hdata) fun ⟨heven, hbase, htop⟩ => ?_
    omega
  · exact exec_writeFwBlock_started (blockFields_of_length lo hi hdata) ⟨heven, hbase, htop⟩

/-- Settles O16, by the verdict on the backup. -/
theorem reflashTriggerChecksTheBackup : Obligations.ReflashTriggerChecksTheBackup := by
  intro s source extra h
  refine ⟨fun hbad => exec_writeReflash_refused h hbad extra,
    fun hgood => ⟨exec_writeReflash_started h hgood extra, ?_⟩⟩
  simp [gie]

/-- Settles O17: the row completes because the request is served, its exit is a reply or the engine's start, and the
frame fixes the operand of the two rows that start the engine. -/
theorem routerLeavesOneOfThreeStates : Obligations.RouterLeavesOneOfThreeStates := by
  intro s frame i ha harrived hdeaf hdecode
  have hserved := served_of_frameArrived harrived ha
  obtain ⟨⟨-, hengine⟩, hidle, -, -, hlen, -, h7⟩ := harrived
  have hframe := frame_of_decodeFrame ha.1 h7 hlen hdecode
  have hi : (i.frame s.cfg).isSome = true := by rw [hframe]; rfl
  obtain ⟨t, ht⟩ := exec_completes hserved hi
  have hroute : route i s = .next t := by rw [← exec_eq_route hi, ht]
  have hexit := route_exit hroute
  have hkeeps := hexit.keepsOutside
  obtain ⟨-, -, hrxie, -, -⟩ := hexit.receiver
  refine ⟨t, ht, hrxie.trans hdeaf, flashByte_congr hkeeps.flash hkeeps.cfg, ?_⟩
  rcases route_replies_or_starts hroute with ⟨code, payload, hreply⟩ | ⟨b, addr, len, rfl, rfl⟩ | ⟨e, rfl, rfl⟩
  · obtain ⟨source, -, -, rfl⟩ := reply_inv hreply
    obtain ⟨records, queue, draws, hhost⟩ := afterHostCalls_eq i s
    refine .inl ⟨rfl, ?_, rfl, Nat.le_add_left 8 _, written_replied _ code source payload⟩
    rw [replied_feState, hhost, hengine]
  · obtain ⟨-, hpayload⟩ := Prod.mk.inj (Option.some.inj hframe)
    exact .inr (.inl ⟨hidle, rfl, congrArg Instr.writeFwBlock (payload_after_location hpayload.symm)⟩)
  · obtain ⟨-, hpayload⟩ := Prod.mk.inj (Option.some.inj hframe)
    exact .inr (.inr ⟨hidle, rfl, congrArg Instr.writeReflash (payload_after_location hpayload.symm)⟩)

end Sys2Proof.Machine
end

section
/-! Proofs for 44_flash_engine: the exact next state of each micro-operation, from the startup check to VERIFY. -/

namespace Sys2Proof.Machine

/-! ### The startup check (44 R201, R206) -/

/-- The check of the image at DESTINATION is the comparison of 40 R114. -/
theorem imageInvalid_dest {s : State} (ha : s.cfg.Admitted) :
    imageInvalid s s.cfg.destBase = .ok (decide (ImageBad s s.cfg.destBase)) := by
  obtain ⟨-, -, hlen, -, -, -, -, hbase, hfit, hend, -⟩ := admitted_geometry ha
  rw [imageInvalid_ok (by omega) ⟨by omega, by omega⟩]
  exact congrArg Except.ok (Bool.eq_iff_iff.2 (bne_iff_ne.trans decide_eq_true_iff.symm))

theorem exec_flashStep_startupCheck {s : State} (hf : s.feState = .startupCheck) :
    exec .flashStep s = finish (startupCheck s) := by
  show execFlashStep s = _
  simp only [execFlashStep, hf]

section Startup

variable {s : State} (ha : s.cfg.Admitted) (hf : s.feState = .startupCheck)
include ha hf

theorem exec_flashStep_reflashes (hdest : ImageBad s s.cfg.destBase) (horigin : ¬ ImageBad s s.cfg.originBase) :
    exec .flashStep s = .next (enterCopy .reflashing (emit (.check true false) s)) := by
  rw [exec_flashStep_startupCheck hf, startupCheck, imageInvalid_dest ha, imageInvalid_origin ha,
    decide_eq_true hdest, decide_eq_false horigin]
  rfl

theorem exec_flashStep_boots_degraded (hdest : ImageBad s s.cfg.destBase) (horigin : ImageBad s s.cfg.originBase) :
    exec .flashStep s = .next (boot { emit (.check true true) s with flashErr := true }) := by
  rw [exec_flashStep_startupCheck hf, startupCheck, imageInvalid_dest ha, imageInvalid_origin ha,
    decide_eq_true hdest, decide_eq_true horigin]
  rfl

theorem exec_flashStep_heals (hdest : ¬ ImageBad s s.cfg.destBase) (horigin : ImageBad s s.cfg.originBase) :
    exec .flashStep s = .next (enterCopy .selfHeal (emit (.check false true) s)) := by
  rw [exec_flashStep_startupCheck hf, startupCheck, imageInvalid_dest ha, imageInvalid_origin ha,
    decide_eq_false hdest, decide_eq_true horigin]
  rfl

theorem exec_flashStep_boots (hdest : ¬ ImageBad s s.cfg.destBase) (horigin : ¬ ImageBad s s.cfg.originBase) :
    exec .flashStep s = .next (boot (emit (.check false false) s)) := by
  rw [exec_flashStep_startupCheck hf, startupCheck, imageInvalid_dest ha, imageInvalid_origin ha,
    decide_eq_false hdest, decide_eq_false horigin]
  rfl

end Startup

/-- Settles O40, by one lemma for each pair of verdicts. -/
theorem startupCheckSelectsABank : Obligations.StartupCheckSelectsABank := by
  intro s ha hf
  refine ⟨exec_flashStep_reflashes ha hf, fun hdest horigin => ?_, exec_flashStep_heals ha hf,
    fun hdest horigin => ?_⟩
  · rw [exec_flashStep_boots_degraded ha hf hdest horigin]
    simp [boot, emit]
  · rw [exec_flashStep_boots ha hf hdest horigin]
    simp [boot, emit]

/-! ### The copy's addresses (44 R208) -/

section Copying

variable {s : State} {src dst : Nat} (hc : Copying s src dst)
include hc

theorem Copying.state : s.feState = .selfHeal ∨ s.feState = .reflashing := by
  rcases hc with ⟨hf, -⟩ | ⟨hf, -⟩
  · exact .inr hf
  · exact .inl hf

theorem Copying.copySrc_eq : copySrc s = src := by
  rcases hc with ⟨hf, rfl, -⟩ | ⟨hf, rfl, -⟩ <;> simp [copySrc, hf]

theorem Copying.copyDst_eq : copyDst s = dst := by
  rcases hc with ⟨hf, -, rfl⟩ | ⟨hf, -, rfl⟩ <;> simp [copyDst, hf]

/-- The images of a copy share no address. -/
theorem Copying.images_apart (ha : s.cfg.Admitted) : src + s.cfg.imageLen ≤ dst ∨ dst + s.cfg.imageLen ≤ src := by
  obtain ⟨-, -, -, -, -, -, -, -, hfit, -⟩ := admitted_geometry ha
  rcases hc with ⟨-, rfl, rfl⟩ | ⟨-, rfl, rfl⟩
  · exact .inl hfit
  · exact .inr hfit

end Copying

/-! ### The copy's ERASE and WRITE (44 R208, R209) -/

/-- The state once the copy's ERASE has erased the segment `fe_seg` of the image at `dst`. -/
def segmentErased (s : State) (dst : Nat) : State :=
  { s with flash := s.flash.clear (dst + s.feSeg * s.cfg.segSize) s.cfg.segSize, feOp := .write, feOff := 0 }

/-- The state once the copy's WRITE has brought its word from `src` to `dst`, or skipped an erased one. -/
def wordCopied (s : State) (src dst : Nat) : State :=
  if flashWord s (src + copyOffset s) = s.cfg.erasedWord then s
  else withWord s (dst + copyOffset s) (flashWord s (src + copyOffset s))

/-- The engine's position after the word at `fe_off`: the next word, the next segment's erase, or FINISH. -/
def pastWord (s : State) : State :=
  if s.feOff + 2 = s.cfg.segSize then
    { s with feOff := 0, feSeg := s.feSeg + 1, feOp := if s.feSeg + 1 < s.cfg.nseg then .erase else .finish }
  else { s with feOff := s.feOff + 2 }

theorem pastWord_within {s : State} (h : s.feOff + 2 ≠ s.cfg.segSize) :
    pastWord s = { s with feOff := s.feOff + 2 } := if_neg h

theorem pastWord_last {s : State} (h : s.feOff + 2 = s.cfg.segSize) :
    pastWord s = { s with
      feOff := 0, feSeg := s.feSeg + 1, feOp := if s.feSeg + 1 < s.cfg.nseg then .erase else .finish } := if_pos h

@[simp] theorem flashByte_pastWord (s : State) (x : Nat) : flashByte (pastWord s) x = flashByte s x := by
  unfold pastWord
  split <;> rfl

theorem wordCopied_eq (s : State) (src dst : Nat) : ∃ flash, wordCopied s src dst = { s with flash := flash } := by
  unfold wordCopied
  split <;> exact ⟨_, rfl⟩

theorem flashByte_segmentErased (s : State) (dst x : Nat) :
    flashByte (segmentErased s dst) x =
      if dst + s.feSeg * s.cfg.segSize ≤ x ∧ x < dst + s.feSeg * s.cfg.segSize + s.cfg.segSize then s.cfg.erasedByte
      else flashByte s x := flashByte_clear s _ _ x

/-- The bytes a word write leaves, by address (20 R58). -/
theorem flashByte_withWord (s : State) (a : Nat) (w : Word16) (x : Nat) :
    flashByte (withWord s a w) x =
      if x = a then programByte s.cfg (flashByte s x) (lo8 w)
      else if x = a + 1 then programByte s.cfg (flashByte s x) (hi8 w) else flashByte s x := by
  split
  · rename_i h0
    rw [h0, flashByte_withWord_low]
  · rename_i h0
    split
    · rename_i h1
      rw [h1, flashByte_withWord_high]
    · rename_i h1
      exact flashByte_withWord_other s w h0 h1

theorem flashByte_wordCopied_erased {s : State} {src dst : Nat}
    (h : flashWord s (src + copyOffset s) = s.cfg.erasedWord) (x : Nat) :
    flashByte (wordCopied s src dst) x = flashByte s x := by rw [wordCopied, if_pos h]

theorem flashByte_wordCopied {s : State} {src dst : Nat} (h : flashWord s (src + copyOffset s) ≠ s.cfg.erasedWord)
    (x : Nat) :
    flashByte (wordCopied s src dst) x =
      if x = dst + copyOffset s then programByte s.cfg (flashByte s x) (flashByte s (src + copyOffset s))
      else if x = dst + copyOffset s + 1 then
        programByte s.cfg (flashByte s x) (flashByte s (src + copyOffset s + 1))
      else flashByte s x := by
  rw [wordCopied, if_neg h, flashByte_withWord, flashWord, lo8_le16, hi8_le16]

section CopySteps

variable {s : State} {src dst : Nat} (ha : s.cfg.Admitted) (hc : Copying s src dst)
include hc

theorem exec_flashStep_of_copy_erase (hop : s.feOp = .erase) : exec .flashStep s = finish (copyErase s) := by
  show execFlashStep s = _
  rcases hc.state with hf | hf <;> simp only [execFlashStep, hf, hop]

theorem exec_flashStep_of_copy_write (hop : s.feOp = .write) : exec .flashStep s = finish (copyWrite s) := by
  show execFlashStep s = _
  rcases hc.state with hf | hf <;> simp only [execFlashStep, hf, hop]

include ha

theorem exec_flashStep_copyErase (hseg : s.feSeg < s.cfg.nseg) (hop : s.feOp = .erase) :
    exec .flashStep s = .next (segmentErased s dst) := by
  obtain ⟨hal, hin⟩ := copy_segment ha hseg
  rw [hc.copyDst_eq] at hal hin
  have hbase := segmentBase_aligned hal
  rw [exec_flashStep_of_copy_erase hc hop, copyErase, hc.copyDst_eq, flashErase_ok (by rw [hbase]; exact hin), hbase]
  rfl

theorem copyWord_wordCopied (hseg : s.feSeg < s.cfg.nseg) (hoff : s.feOff < s.cfg.segSize)
    (heven : s.feOff % 2 = 0) : copyWord (flashWord s (src + copyOffset s)) s = .ok (wordCopied s src dst) := by
  obtain ⟨he, hin⟩ := copy_word ha hseg hoff heven (copyDst_range ha)
  rw [copyWord, wordCopied, ← hc.copyDst_eq]
  split
  · rfl
  · exact flashWriteWord_withWord he hin

theorem exec_flashStep_copyWrite (hseg : s.feSeg < s.cfg.nseg) (hoff : s.feOff < s.cfg.segSize)
    (heven : s.feOff % 2 = 0) (hop : s.feOp = .write) :
    exec .flashStep s = .next (pastWord (wordCopied s src dst)) := by
  obtain ⟨-, hsrc⟩ := copy_word ha hseg hoff heven (copySrc_range ha)
  obtain ⟨-, heven2, -⟩ := admitted_geometry ha
  obtain ⟨flash, hword⟩ := wordCopied_eq s src dst
  have hset : s.feOff + 2 ≤ max s.cfg.segSize 256 := by omega
  rw [exec_flashStep_of_copy_write hc hop, copyWrite, memRead16_ok hsrc, ok_bind, hc.copySrc_eq,
    copyWord_wordCopied ha hc hseg hoff heven, ok_bind, hword, setFeOff, if_pos hset, ok_bind, copyAdvance, pastWord]
  simp only
  split
  · rw [setFeSeg, if_pos (show s.feSeg + 1 ≤ s.cfg.nseg from hseg)]
    rfl
  · rfl

end CopySteps

/-- Settles O41, from the next states of the two micro-operations and their bytes. -/
theorem copyErasesAndWritesItsSegment : Obligations.CopyErasesAndWritesItsSegment := by
  intro s src dst ha hc hseg
  obtain ⟨flash, hcopied⟩ := wordCopied_eq s src dst
  refine ⟨fun hop => ⟨_, exec_flashStep_copyErase ha hc hseg hop, rfl, fun x => ?_⟩, fun hop hoff heven =>
    ⟨_, exec_flashStep_copyWrite ha hc hseg hoff heven hop, fun hmore => ?_, fun hlast => ?_, fun hskip x => ?_,
      fun hword x => ?_⟩⟩
  · rw [flashByte_segmentErased, Nat.add_mul, Nat.one_mul, Nat.add_assoc]
  · rw [hcopied, pastWord_within (s := { s with flash := flash }) hmore]
  · rw [hcopied, pastWord_last (s := { s with flash := flash }) hlast]
  · rw [flashByte_pastWord]
    exact flashByte_wordCopied_erased hskip x
  · rw [flashByte_pastWord]
    exact flashByte_wordCopied hword x

/-! ### FINISH and REBOOTED (44 R210 to R212) -/

theorem exec_flashStep_reflashFinish {s : State} (hf : s.feState = .reflashing) (hop : s.feOp = .finish) :
    exec .flashStep s = .next (reflashFinish s) := by
  show execFlashStep s = _
  simp only [execFlashStep, hf, hop]

section SelfHeal

variable {s : State} (ha : s.cfg.Admitted) (hf : s.feState = .selfHeal) (hop : s.feOp = .finish)
include ha hf hop

theorem exec_flashStep_selfHealFinish :
    exec .flashStep s = finish (checkedImage (decide (ImageBad s s.cfg.originBase)) s >>= fun t => pure (boot t)) := by
  show execFlashStep s = _
  simp only [execFlashStep, hf, hop, selfHealFinish, imageInvalid_origin ha, ok_bind]

theorem exec_flashStep_healed_invalid (hbad : ImageBad s s.cfg.originBase) :
    exec .flashStep s = .next (boot { s with flashErr := true }) := by
  rw [exec_flashStep_selfHealFinish ha hf hop, decide_eq_true hbad]
  rfl

theorem exec_flashStep_healed (hgood : ¬ ImageBad s s.cfg.originBase) : exec .flashStep s = .next (boot s) := by
  rw [exec_flashStep_selfHealFinish ha hf hop, decide_eq_false hgood]
  rfl

end SelfHeal

/-- REBOOTED masks the interrupts, its UART is drained, and no rule is enabled there but a reset (44 R211). -/
theorem exec_event_of_rebooted {s : State} (hinv : Inv s) (hf : s.feState = .rebooted) {e : Event}
    (he : ¬ EventResets e) : exec e.instr s = .next s := by
  have hgie : gie s = false := by simp [gie, hf]
  cases e with
  | rxByte b => exact exec_rxByte_lost (.inl hgie) b
  | tick => exact exec_tick_frozen hgie
  | poll => exact exec_poll_of_not_enabled (by simp [PollEnabled, hf])
  | txReady => exact exec_txReady_of_not_enabled (by simp [TxReadyEnabled, hgie])
  | uartShiftOut => exact exec_uartShiftOut_of_empty (hinv.quiet_of_busy (by simp [hf])).fifo_empty
  | flashStep => exact exec_flashStep_of_not_enabled (by simp [FlashStepEnabled, hf])
  | reset c => exact absurd (.inl ⟨c, rfl⟩) he
  | powerFail d => exact absurd (.inr ⟨d, rfl⟩) he

/-- Settles O42, by the next state of each FINISH and the events that REBOOTED leaves without effect. -/
theorem copyFinishesInRebootOrBoot : Obligations.CopyFinishesInRebootOrBoot := by
  refine ⟨fun s hf hop => exec_flashStep_reflashFinish hf hop, fun s ha hf hop =>
    ⟨exec_flashStep_healed_invalid ha hf hop, exec_flashStep_healed ha hf hop⟩,
    fun s e hinv hf => ⟨?_, exec_event_of_rebooted hinv hf⟩, fun s => ?_⟩
  · simp [gie, hf]
  · simp [ResetEnabled]

/-! ### The block write (44 R213 to R217) -/

/-- A segment that holds an address between two segment boundaries lies between them (20 R57). -/
theorem segment_between {size lo hi a : Nat} (hlo : lo % size = 0) (hhi : hi % size = 0) (h1 : lo ≤ a) (h2 : a < hi) :
    lo ≤ a - a % size ∧ a - a % size + size ≤ hi := by
  obtain ⟨m, rfl⟩ := Nat.dvd_of_mod_eq_zero hlo
  obtain ⟨n, rfl⟩ := Nat.dvd_of_mod_eq_zero hhi
  have hpos : 0 < size := Nat.pos_of_mul_pos_right (Nat.zero_lt_of_lt h2)
  rw [← Nat.mul_div_self_eq_mod_sub_self, ← Nat.mul_succ]
  exact ⟨Nat.mul_le_mul_left _ ((Nat.le_div_iff_mul_le hpos).2 (by rwa [Nat.mul_comm])),
    Nat.mul_le_mul_left _ ((Nat.div_lt_iff_lt_mul hpos).2 (by rwa [Nat.mul_comm]))⟩

section Block

variable {s : State} (hf : s.feState = .blockWrite)
include hf

theorem exec_flashStep_of_block_erase (hop : s.feOp = .erase) : exec .flashStep s = finish (blockErase s) := by
  show execFlashStep s = _
  simp only [execFlashStep, hf, hop]

theorem exec_flashStep_of_block_write (hop : s.feOp = .write) : exec .flashStep s = finish (blockWriteWord s) := by
  show execFlashStep s = _
  simp only [execFlashStep, hf, hop]

theorem exec_flashStep_of_block_verify (hop : s.feOp = .verify) : exec .flashStep s = finish (blockVerify s) := by
  show execFlashStep s = _
  simp only [execFlashStep, hf, hop]

variable (ha : s.cfg.Admitted)
include ha

theorem exec_flashStep_blockErase (haddr : BlockAddressOk s.cfg s.bwAddr s.bwLen) (hop : s.feOp = .erase) :
    exec .flashStep s = .next { s with
      flash := s.flash.clear (segmentBase s s.bwAddr.toNat) s.cfg.segSize
      feOp := if 0 < s.bwLen.toNat then .write else .verify } := by
  obtain ⟨-, hlow, hhigh⟩ := haddr
  obtain ⟨-, -, -, -, hbase, -, hdest, -, -, hend, -⟩ := admitted_geometry ha
  obtain ⟨h1, h2⟩ := segment_between hbase hdest hlow (by omega)
  have hin : InFlash s (segmentBase s s.bwAddr.toNat) s.cfg.segSize := ⟨h1, by rw [segmentBase]; omega⟩
  rw [exec_flashStep_of_block_erase hf hop, blockErase, flashErase_ok hin]
  rfl

theorem exec_flashStep_blockWrite (haddr : BlockAddressOk s.cfg s.bwAddr s.bwLen) (hop : s.feOp = .write)
    (hoff : s.feOff < s.bwLen.toNat) (heven : s.feOff % 2 = 0) {lo hi : Byte} (hlo : bufByte s (8 + s.feOff) = .ok lo)
    (hhi : blockHighByte s s.feOff = .ok hi) :
    exec .flashStep s = .next { withWord s (s.bwAddr.toNat + s.feOff) (le16 lo hi) with
      feOff := s.feOff + 2
      feOp := if s.bwLen.toNat ≤ s.feOff + 2 then .verify else .write } := by
  obtain ⟨haddr2, hlow, hhigh⟩ := haddr
  obtain ⟨-, -, himg, -, -, -, -, -, -, hend, -⟩ := admitted_geometry ha
  have hin : InFlash s (s.bwAddr.toNat + s.feOff) 2 := ⟨by omega, by omega⟩
  have hlen := s.bwLen.isLt
  have hset : s.feOff + 2 ≤ max s.cfg.segSize 256 := by omega
  rw [exec_flashStep_of_block_write hf hop, blockWriteWord, hlo, ok_bind, hhi, ok_bind,
    flashWriteWord_withWord (by omega) hin, ok_bind, setFeOff, withWord, if_pos hset]
  rfl

end Block

/-- The high byte of a block's word is the buffer's, or the 0xFF that pads an odd length (44 R216). -/
theorem blockHighByte_ok {s : State} {hi : Byte}
    (h : s.feOff + 1 < s.bwLen.toNat ∧ s.buf.find? (8 + s.feOff + 1) = some hi ∨
      s.bwLen.toNat ≤ s.feOff + 1 ∧ hi = 0xFF) : blockHighByte s s.feOff = .ok hi := by
  rcases h with ⟨hmore, hbyte⟩ | ⟨hend, rfl⟩
  · exact (if_pos hmore).trans (bufByte_ok hbyte)
  · exact if_neg (by omega)

/-- Settles O43, from the next states of the two micro-operations and their bytes. -/
theorem blockErasesAndWritesItsWords : Obligations.BlockErasesAndWritesItsWords := by
  intro s ha hf haddr
  refine ⟨fun hop => ⟨_, exec_flashStep_blockErase hf ha haddr hop, rfl, flashByte_clear s _ _⟩,
    fun hop hoff heven lo hi hlo hhi =>
      ⟨_, exec_flashStep_blockWrite hf ha haddr hop hoff heven (bufByte_ok hlo) (blockHighByte_ok hhi), rfl,
        fun x => ?_⟩⟩
  refine (flashByte_withWord s _ _ x).trans ?_
  rw [lo8_le16, hi8_le16]

/-- A range of the flash reads as `data` when it does byte for byte. -/
theorem flashBytes_eq_iff {s : State} {a : Nat} {data : Bytes} :
    flashBytes s a data.length = data ↔ ∀ k (h : k < data.length), flashByte s (a + k) = data[k] := by
  constructor
  · intro h k hk
    rw [← flashBytes_getElem s a data.length k (by simpa using hk)]
    simp only [h]
  · intro h
    refine List.ext_getElem (flashBytes_length _ _ _) fun k _ hk => ?_
    rw [flashBytes_getElem]
    exact h k hk

/-- VERIFY on a request that stands whole in the buffer: the status byte says how the comparison went (44 R217). -/
theorem exec_flashStep_blockVerify {s : State} {source : Byte} {data : Bytes} (h : Served s source)
    (hf : s.feState = .blockWrite) (hop : s.feOp = .verify) (haddr : BlockAddressOk s.cfg s.bwAddr s.bwLen)
    (hlen : data.length = s.bwLen.toNat) (hdata : BufHolds s 8 data) :
    exec .flashStep s = .next (replied s.cfg.ackCode source
      [if flashBytes s s.bwAddr.toNat data.length = data then s.cfg.stOk else s.cfg.stWriteFailed]
      { s with feState := .idle }) := by
  obtain ⟨-, hlow, hhigh⟩ := haddr
  obtain ⟨-, -, -, -, -, -, -, -, -, hend, -⟩ := admitted_geometry h.1
  have hread : memRead s s.bwAddr.toNat data.length = .ok (flashBytes s s.bwAddr.toNat data.length) :=
    memRead_ok ⟨hlow, by omega⟩
  have hserved : Served { s with feState := .idle } source := h
  rw [exec_flashStep_of_block_verify hf hop, blockVerify, ← hlen, hread, ok_bind, bufBytes_holds hdata, ok_bind]
  simp only
  split
  · exact congrArg finish (replyStatus_served hserved _)
  · exact congrArg finish (replyStatus_served hserved _)

/-- Settles O44, the comparison being one of bytes. -/
theorem blockVerifyReportsTheComparison : Obligations.BlockVerifyReportsTheComparison := by
  intro s source data h hf hop haddr hlen hdata
  rw [exec_flashStep_blockVerify h hf hop haddr hlen hdata, ← flashBytes_eq_iff]
  exact ⟨fun heq => by rw [if_pos heq], fun hne => by rw [if_neg hne]⟩

end Sys2Proof.Machine
end

section
/-! Proofs for 44_flash_engine: which flash bytes an instruction can change, and what an event does to the engine. -/

namespace Sys2Proof.Machine

/-! ### What the events but FLASH_STEP do to the engine -/

/-- `t` has the configuration, the flash and the engine's state and position of `s`. -/
structure KeepsEngine (s t : State) : Prop where
  cfg : t.cfg = s.cfg
  flash : t.flash = s.flash
  fe_state : t.feState = s.feState
  fe_op : t.feOp = s.feOp
  fe_seg : t.feSeg = s.feSeg
  fe_off : t.feOff = s.feOff

theorem KeepsEngine.refl (s : State) : KeepsEngine s s := ⟨rfl, rfl, rfl, rfl, rfl, rfl⟩

theorem KeepsEngine.trans {s t u : State} (h : KeepsEngine s t) (k : KeepsEngine t u) : KeepsEngine s u :=
  ⟨k.cfg.trans h.cfg, k.flash.trans h.flash, k.fe_state.trans h.fe_state, k.fe_op.trans h.fe_op,
    k.fe_seg.trans h.fe_seg, k.fe_off.trans h.fe_off⟩

theorem KeepsEngine.flashByte {s t : State} (h : KeepsEngine s t) (a : Nat) :
    Machine.flashByte t a = Machine.flashByte s a := flashByte_congr h.flash h.cfg a

/-- The verdict on an image depends on its bytes only (40 R114). -/
theorem imageBad_congr {s t : State} {a b : Nat} (ha : s.cfg.Admitted) (hc : t.cfg = s.cfg)
    (h : ∀ k < s.cfg.imageLen, flashByte t (b + k) = flashByte s (a + k)) : ImageBad t b ↔ ImageBad s a := by
  obtain ⟨-, -, hlen, -⟩ := admitted_geometry ha
  rw [ImageBad, ImageBad, hc, flashBytes_congr fun k hk => h k (by omega), flashWord, flashWord, Nat.add_assoc,
    Nat.add_assoc, h _ (by omega), h _ (by omega)]

theorem exec_rxByte_keepsEngine {b : Byte} {s t : State} (h : exec (.rxByte b) s = .next t) : KeepsEngine s t := by
  by_cases hne : t = s
  · exact hne ▸ .refl s
  · obtain ⟨hg, hi, hb⟩ := exec_rxByte_changes h hne
    cases ha : s.rxActive with
    | true =>
      rcases Nat.lt_or_ge s.rxCursor s.cfg.bufSize with hroom | hfull
      · rw [exec_rxByte_stored hg hi ha hroom] at h
        cases h
        exact { KeepsEngine.refl s with }
      · rw [exec_rxByte_dropped hg hi ha hfull] at h
        cases h
        exact { KeepsEngine.refl s with }
    | false =>
      obtain rfl : b = s.cfg.startByte := by simpa [ha] using hb
      rw [exec_rxByte_start hg hi ha] at h
      cases h
      exact { KeepsEngine.refl s with }

theorem exec_tick_keepsEngine {s t : State} (h : exec .tick s = .next t) : KeepsEngine s t := by
  cases hg : gie s with
  | false => rw [exec_tick_frozen hg] at h; cases h; exact .refl s
  | true => rw [exec_tick_counts hg] at h; cases h; exact { KeepsEngine.refl s with }

theorem exec_txReady_keepsEngine {s t : State} (h : exec .txReady s = .next t) : KeepsEngine s t := by
  by_cases he : TxReadyEnabled s
  · obtain ⟨b, -, rfl⟩ := exec_txReady_inv he h
    unfold endTransmission
    split <;> exact { KeepsEngine.refl s with }
  · rw [exec_txReady_of_not_enabled he] at h
    cases h
    exact .refl s

theorem exec_uartShiftOut_keepsEngine {s t : State} (h : exec .uartShiftOut s = .next t) : KeepsEngine s t := by
  obtain ⟨ht, -⟩ := exec_uartShiftOut_inv h
  rw [ht]
  exact { KeepsEngine.refl s with }

theorem keepsEngine_replied (code source : Byte) (payload : Bytes) (s : State) :
    KeepsEngine s (replied code source payload s) := { KeepsEngine.refl s with }

/-- A frame that is answered reaches the router, or the engine is left alone. -/
theorem answerFrame_routes {s t : State} {frame : Bytes} (h : answerFrame frame s = .next t) :
    KeepsEngine s t ∨ ∃ i u, KeepsEngine s u ∧ route i u = .next t := by
  unfold answerFrame at h
  split at h
  case h_1 | h_2 | h_3 => cases h; exact .inl { KeepsEngine.refl s with }
  case h_4 =>
    obtain ⟨source, -, -, rfl⟩ := reply_inv (finish_next h)
    exact .inl { KeepsEngine.refl s with }
  case h_5 => cases h; exact .inl (.refl s)
  case h_6 i _ =>
    refine .inr ⟨i, _, ?_, h⟩
    exact { KeepsEngine.refl s with }

theorem turnaround_keepsEngine (s : State) : KeepsEngine s (turnaround s) := by
  rcases turnaround_cases s with h | ⟨-, h⟩ | ⟨-, h⟩ <;> rw [h] <;> exact { KeepsEngine.refl s with }

theorem housekeeping_keepsEngine {s t : State} (h : housekeeping s = .ok t) : KeepsEngine s t := by
  rcases housekeeping_ok h with rfl | ⟨-, rfl⟩
  · exact .refl _
  · exact { KeepsEngine.refl s with }

/-- POLL reaches the router in a state with the same engine, or leaves the engine alone (41 R127, R131). -/
theorem exec_poll_routes {s t : State} (h : exec .poll s = .next t) :
    KeepsEngine s t ∨ PollEnabled s ∧ ∃ i u, KeepsEngine s u ∧ route i u = .next t := by
  by_cases hp : PollEnabled s
  · replace h : execPoll s = .next t := h
    rw [execPoll, if_pos hp] at h
    split at h
    case h_1 => cases h
    case h_2 u hu =>
      have hbefore : KeepsEngine s (turnaround u) :=
        .trans { housekeeping_keepsEngine hu with } (turnaround_keepsEngine u)
      rcases frameCheck_next h with rfl | ⟨-, frame, hframe⟩
      · exact .inl hbefore
      · rcases answerFrame_routes hframe with hkeep | ⟨i, v, hv, hroute⟩
        · exact .inl (hbefore.trans hkeep)
        · exact .inr ⟨hp, i, v, hbefore.trans hv, hroute⟩
  · rw [exec_poll_of_not_enabled hp] at h
    cases h
    exact .inl (.refl s)

/-- The reflash trigger enters the reflash on a valid backup only (43 R180). -/
theorem exec_writeReflash_inv {s t : State} (ha : s.cfg.Admitted) {extra : Bytes}
    (h : exec (.writeReflash extra) s = .next t) :
    KeepsEngine s t ∨ ¬ ImageBad s s.cfg.originBase ∧ t = enterCopy .reflashing s := by
  replace h := finish_next h
  rw [reflashTrigger, imageInvalid_origin ha, ok_bind] at h
  by_cases hbad : ImageBad s s.cfg.originBase
  · rw [decide_eq_true hbad] at h
    obtain ⟨source, -, -, rfl⟩ := reply_inv (payload := [_]) h
    exact .inl (keepsEngine_replied _ _ _ _)
  · rw [decide_eq_false hbad] at h
    cases h
    exact .inr ⟨hbad, rfl⟩

theorem route_engine {i : Instr} {s t : State} (ha : s.cfg.Admitted) (h : route i s = .next t) :
    KeepsEngine s t ∨ (∃ addr len, t = startBlockWrite addr len s) ∨
      ¬ ImageBad s s.cfg.originBase ∧ t = enterCopy .reflashing s := by
  by_cases hi : ∃ extra, i = .writeReflash extra
  · obtain ⟨extra, rfl⟩ := hi
    exact (exec_writeReflash_inv ha h).imp_right .inr
  · rcases route_replies_or_starts h with ⟨code, payload, hreply⟩ | ⟨b, addr, len, -, rfl⟩ | ⟨extra, rfl, -⟩
    · obtain ⟨source, -, -, rfl⟩ := reply_inv hreply
      obtain ⟨records, queue, draws, hhost⟩ := afterHostCalls_eq i s
      rw [hhost]
      exact .inl { KeepsEngine.refl s with }
    · exact .inr (.inl ⟨addr, len, rfl⟩)
    · exact absurd ⟨extra, rfl⟩ hi

/-- RESET restarts the block over the same flash, or is not enabled (70 R270). -/
theorem exec_reset_inv {c : ResetSource} {s t : State} (h : exec (.reset c) s = .next t) :
    t = emit (.reset (resetCause c)) (resetElements s) ∨ t = s ∧ ¬ ResetEnabled c s := by
  by_cases he : ResetEnabled c s
  · replace h : execReset c s = .next t := h
    rw [execReset, if_pos he] at h
    cases h
    exact .inl rfl
  · rw [exec_reset_of_not_enabled he] at h
    cases h
    exact .inr ⟨rfl, he⟩

theorem exec_powerFail_inv {d : Bytes} {s t : State} (h : exec (.powerFail d) s = .next t) :
    ∃ u, flashStores (pfTarget s).1 (drawBytes (pfTarget s).2 d s).1 (drawBytes (pfTarget s).2 d s).2 = .ok u ∧
      t = emit (.reset .powerFail) (resetElements u) := by
  obtain ⟨u, hu, h⟩ := bind_ok (finish_next h)
  cases h
  exact ⟨u, hu, rfl⟩

/-- What an event does to the engine: it rests; POLL starts a block write or a reflash; a reset restarts it; or it is a
FLASH_STEP. -/
inductive EngineOutcome (s : State) (e : Event) (t : State) : Prop
  | rests (h : KeepsEngine s t)
  | starts_block (he : e = .poll) (hp : PollEnabled s) {u : State} (hu : KeepsEngine s u) (addr : Word16) (len : Byte)
      (ht : t = startBlockWrite addr len u)
  | starts_reflash (he : e = .poll) (hp : PollEnabled s) {u : State} (hu : KeepsEngine s u)
      (hgood : ¬ ImageBad s s.cfg.originBase) (ht : t = enterCopy .reflashing u)
  | restarts (he : EventResets e) (ht : t.feState = .startupCheck)
  | steps (he : e = .flashStep)

theorem exec_poll_engine {s t : State} (ha : s.cfg.Admitted) (h : exec .poll s = .next t) : EngineOutcome s .poll t := by
  rcases exec_poll_routes h with hkeep | ⟨hp, i, u, hu, hroute⟩
  · exact .rests hkeep
  · rcases route_engine (hu.cfg ▸ ha) hroute with hkeep | ⟨addr, len, ht⟩ | ⟨hgood, ht⟩
    · exact .rests (hu.trans hkeep)
    · exact .starts_block rfl hp hu addr len ht
    · rw [hu.cfg, imageBad_congr ha hu.cfg fun k _ => hu.flashByte _] at hgood
      exact .starts_reflash rfl hp hu hgood ht

theorem exec_event_engine {s t : State} {e : Event} (ha : s.cfg.Admitted) (h : exec e.instr s = .next t) :
    EngineOutcome s e t := by
  cases e with
  | rxByte b => exact .rests (exec_rxByte_keepsEngine h)
  | tick => exact .rests (exec_tick_keepsEngine h)
  | poll => exact exec_poll_engine ha h
  | txReady => exact .rests (exec_txReady_keepsEngine h)
  | uartShiftOut => exact .rests (exec_uartShiftOut_keepsEngine h)
  | flashStep => exact .steps rfl
  | reset c =>
    rcases exec_reset_inv h with rfl | ⟨rfl, -⟩
    · exact .restarts (.inl ⟨c, rfl⟩) rfl
    · exact .rests (.refl t)
  | powerFail d =>
    obtain ⟨u, -, rfl⟩ := exec_powerFail_inv h
    exact .restarts (.inr ⟨d, rfl⟩) rfl

/-! ### The target of the next micro-operation (44 R221) -/

/-- The address `a` is one of those that the next FLASH_STEP would change. -/
abbrev InTarget (s : State) (a : Nat) : Prop := (pfTarget s).1 ≤ a ∧ a < (pfTarget s).1 + (pfTarget s).2

theorem pfTarget_empty_of_state {s : State}
    (h : s.feState = .idle ∨ s.feState = .startupCheck ∨ s.feState = .rebooted) : (pfTarget s).2 = 0 := by
  rcases h with h | h | h <;> simp only [pfTarget, h]

section Target

variable {s : State} {src dst : Nat} (hc : Copying s src dst)

theorem pfTarget_empty_of_op (hop : s.feOp = .verify ∨ s.feOp = .finish) : (pfTarget s).2 = 0 := by
  rcases hop with hop | hop <;> cases hf : s.feState <;> simp only [pfTarget, hf, hop]

include hc in
theorem pfTarget_copy_erase (hop : s.feOp = .erase) :
    pfTarget s = (dst + s.feSeg * s.cfg.segSize, s.cfg.segSize) := by
  rw [← hc.copyDst_eq]
  rcases hc.state with hf | hf <;> simp only [pfTarget, hf, hop]

include hc in
theorem pfTarget_copy_write (hop : s.feOp = .write) :
    pfTarget s = (dst + copyOffset s, if flashWord s (src + copyOffset s) = s.cfg.erasedWord then 0 else 2) := by
  rw [← hc.copyDst_eq, ← hc.copySrc_eq]
  rcases hc.state with hf | hf <;> simp only [pfTarget, hf, hop]

theorem pfTarget_block_erase (hf : s.feState = .blockWrite) (hop : s.feOp = .erase) :
    pfTarget s = (segmentBase s s.bwAddr.toNat, s.cfg.segSize) := by simp only [pfTarget, hf, hop]

theorem pfTarget_block_write (hf : s.feState = .blockWrite) (hop : s.feOp = .write) :
    pfTarget s = (s.bwAddr.toNat + s.feOff, 2) := by simp only [pfTarget, hf, hop]

end Target

/-! ### The bytes a FLASH_STEP changes -/

/-- A copy in progress goes between the two images, in one direction or the other. -/
theorem copying_of_state {s : State} (h : s.feState = .selfHeal ∨ s.feState = .reflashing) :
    Copying s (copySrc s) (copyDst s) := by
  rcases h with hf | hf
  · exact .inr ⟨hf, by simp [copySrc, hf], by simp [copyDst, hf]⟩
  · exact .inl ⟨hf, by simp [copySrc, hf], by simp [copyDst, hf]⟩

theorem memRead16_inv {s : State} {a : Nat} {w : Word16} (h : memRead16 s a = .ok w) : w = flashWord s a := by
  obtain ⟨b0, h0, h⟩ := bind_ok h
  obtain ⟨b1, h1, h⟩ := bind_ok h
  unfold memRead at h0 h1
  split at h0 <;> cases h0
  split at h1 <;> cases h1
  cases h
  rfl

theorem flashErase_changed {s t : State} {a x : Nat} (h : flashErase a s = .ok t) (hx : flashByte t x ≠ flashByte s x) :
    segmentBase s a ≤ x ∧ x < segmentBase s a + s.cfg.segSize := by
  obtain ⟨rfl, -⟩ := flashErase_inv h
  by_contra hout
  exact hx ((flashByte_clear s _ _ x).trans (if_neg hout))

theorem flashWriteWord_changed {s t : State} {a x : Nat} {w : Word16} (h : flashWriteWord a w s = .ok t)
    (hx : flashByte t x ≠ flashByte s x) : a ≤ x ∧ x < a + 2 := by
  obtain ⟨rfl, -⟩ := flashWriteWord_inv h
  by_contra hout
  exact hx (flashByte_withWord_other s w (by omega) (by omega))

theorem setFeOff_flashByte {s t : State} {n : Nat} (h : setFeOff n s = .ok t) (x : Nat) :
    flashByte t x = flashByte s x := by
  unfold setFeOff at h
  split at h <;> cases h
  rfl

theorem copyAdvance_flashByte {s t : State} (h : copyAdvance s = .ok t) (x : Nat) :
    flashByte t x = flashByte s x := by
  unfold copyAdvance at h
  split at h
  · obtain ⟨u, hu, h⟩ := bind_ok h
    unfold setFeSeg at hu
    split at hu <;> cases hu
    cases h
    rfl
  · cases h
    rfl

theorem copyErase_changed {s t : State} {x : Nat} (ha : s.cfg.Admitted)
    (hf : s.feState = .selfHeal ∨ s.feState = .reflashing) (hop : s.feOp = .erase) (h : copyErase s = .ok t)
    (hx : flashByte t x ≠ flashByte s x) : InTarget s x := by
  obtain ⟨u, hu, h⟩ := bind_ok h
  cases h
  obtain ⟨-, -, hal⟩ := copyDst_range ha
  have hbase : segmentBase s (copyDst s + s.feSeg * s.cfg.segSize) = copyDst s + s.feSeg * s.cfg.segSize :=
    segmentBase_aligned (by rw [Nat.add_mul_mod_self_right, hal])
  have hchanged := flashErase_changed hu hx
  rw [hbase] at hchanged
  rw [InTarget, pfTarget_copy_erase (copying_of_state hf) hop]
  exact hchanged

theorem copyWrite_changed {s t : State} {x : Nat} (hf : s.feState = .selfHeal ∨ s.feState = .reflashing)
    (hop : s.feOp = .write) (h : copyWrite s = .ok t) (hx : flashByte t x ≠ flashByte s x) : InTarget s x := by
  obtain ⟨w, hw, h⟩ := bind_ok h
  obtain ⟨u, hu, h⟩ := bind_ok h
  obtain ⟨v, hv, h⟩ := bind_ok h
  rw [copyAdvance_flashByte h, setFeOff_flashByte hv] at hx
  rw [InTarget, pfTarget_copy_write (copying_of_state hf) hop, ← memRead16_inv hw]
  unfold copyWord at hu
  split at hu
  · cases hu
    exact absurd rfl hx
  · rename_i hword
    rw [if_neg hword]
    exact flashWriteWord_changed hu hx

theorem blockErase_changed {s t : State} {x : Nat} (hf : s.feState = .blockWrite) (hop : s.feOp = .erase)
    (h : blockErase s = .ok t) (hx : flashByte t x ≠ flashByte s x) : InTarget s x := by
  obtain ⟨u, hu, h⟩ := bind_ok h
  cases h
  rw [InTarget, pfTarget_block_erase hf hop]
  exact flashErase_changed hu hx

theorem blockWriteWord_changed {s t : State} {x : Nat} (hf : s.feState = .blockWrite) (hop : s.feOp = .write)
    (h : blockWriteWord s = .ok t) (hx : flashByte t x ≠ flashByte s x) : InTarget s x := by
  obtain ⟨lo, -, h⟩ := bind_ok h
  obtain ⟨hi, -, h⟩ := bind_ok h
  obtain ⟨u, hu, h⟩ := bind_ok h
  obtain ⟨v, hv, h⟩ := bind_ok h
  cases h
  rw [InTarget, pfTarget_block_write hf hop]
  exact flashWriteWord_changed hu fun hsame => hx ((setFeOff_flashByte hv x).trans hsame)

theorem startupCheck_flashByte {s t : State} (h : startupCheck s = .ok t) (x : Nat) :
    flashByte t x = flashByte s x := by
  obtain ⟨pbad, -, h⟩ := bind_ok h
  obtain ⟨bbad, -, h⟩ := bind_ok h
  match pbad, bbad with
  | true, false | true, true | false, true | false, false => cases h; rfl

theorem selfHealFinish_flashByte {s t : State} (h : selfHealFinish s = .ok t) (x : Nat) :
    flashByte t x = flashByte s x := by
  obtain ⟨bad, -, h⟩ := bind_ok h
  cases bad with
  | true | false => cases h; rfl

/-- VERIFY ends in a reply of the idle engine, whatever it finds (44 R217). -/
theorem blockVerify_inv {s t : State} (h : blockVerify s = .ok t) :
    ∃ source status, t = replied s.cfg.ackCode source [status] { s with feState := .idle } := by
  obtain ⟨written, -, h⟩ := bind_ok h
  obtain ⟨sent, -, h⟩ := bind_ok h
  split at h
  · obtain ⟨source, -, -, rfl⟩ := reply_inv (payload := [s.cfg.stOk]) h
    exact ⟨source, _, rfl⟩
  · obtain ⟨source, -, -, rfl⟩ := reply_inv (payload := [s.cfg.stWriteFailed]) h
    exact ⟨source, _, rfl⟩

theorem exec_flashStep_changed {s t : State} {x : Nat} (ha : s.cfg.Admitted) (h : exec .flashStep s = .next t)
    (hx : flashByte t x ≠ flashByte s x) : InTarget s x := by
  replace h : execFlashStep s = .next t := h
  unfold execFlashStep at h
  split at h
  case h_1 => exact absurd (startupCheck_flashByte (finish_next h) x) hx
  case h_2 hf hop => exact copyErase_changed ha (.inl hf) hop (finish_next h) hx
  case h_3 hf hop => exact copyWrite_changed (.inl hf) hop (finish_next h) hx
  case h_4 => exact absurd (selfHealFinish_flashByte (finish_next h) x) hx
  case h_6 hf hop => exact copyErase_changed ha (.inr hf) hop (finish_next h) hx
  case h_7 hf hop => exact copyWrite_changed (.inr hf) hop (finish_next h) hx
  case h_10 hf hop => exact blockErase_changed hf hop (finish_next h) hx
  case h_11 hf hop => exact blockWriteWord_changed hf hop (finish_next h) hx
  case h_12 =>
    obtain ⟨source, status, rfl⟩ := blockVerify_inv (finish_next h)
    exact absurd rfl hx
  case h_5 | h_9 | h_13 => cases h
  case h_8 | h_14 | h_15 => cases h; exact absurd rfl hx

/-! ### The bytes any instruction changes -/

theorem exec_powerFail_changed {d : Bytes} {s t : State} {x : Nat} (h : exec (.powerFail d) s = .next t)
    (hx : flashByte t x ≠ flashByte s x) : InTarget s x := by
  obtain ⟨u, hu, rfl⟩ := exec_powerFail_inv h
  obtain ⟨rfl, -⟩ := flashStores_inv hu
  by_contra hout
  refine hx ((flashByte_storeAll (drawBytes (pfTarget s).2 d s).2 _ _ x).trans (if_neg ?_))
  rwa [drawBytes_length]

theorem exec_reset_flashByte {c : ResetSource} {s t : State} (h : exec (.reset c) s = .next t) (x : Nat) :
    flashByte t x = flashByte s x := by
  rcases exec_reset_inv h with rfl | ⟨rfl, -⟩ <;> rfl

theorem exec_poll_flashByte {s t : State} (h : exec .poll s = .next t) (x : Nat) : flashByte t x = flashByte s x := by
  by_cases hp : PollEnabled s
  · have hkeep := (execPoll_outcome hp h).keepsOutside
    exact flashByte_congr hkeep.flash hkeep.cfg x
  · rw [exec_poll_of_not_enabled hp] at h
    cases h
    rfl

/-- Only a FLASH_STEP and a power failure change a flash byte, and only one of the target (44 R221, 20 R52). -/
theorem exec_changed {i : Instr} {s t : State} {x : Nat} (ha : s.cfg.Admitted) (h : exec i s = .next t)
    (hx : flashByte t x ≠ flashByte s x) : (i = .flashStep ∨ ∃ d, i = .powerFail d) ∧ InTarget s x := by
  rcases frame_or_event s.cfg i with hi | ⟨e, rfl⟩
  · rw [exec_eq_route hi] at h
    have hkeep := (route_exit h).keepsOutside
    exact absurd (flashByte_congr hkeep.flash hkeep.cfg x) hx
  · cases e with
    | rxByte b => exact absurd ((exec_rxByte_keepsEngine h).flashByte x) hx
    | tick => exact absurd ((exec_tick_keepsEngine h).flashByte x) hx
    | poll => exact absurd (exec_poll_flashByte h x) hx
    | txReady => exact absurd ((exec_txReady_keepsEngine h).flashByte x) hx
    | uartShiftOut => exact absurd ((exec_uartShiftOut_keepsEngine h).flashByte x) hx
    | flashStep => exact ⟨.inl rfl, exec_flashStep_changed ha h hx⟩
    | reset c => exact absurd (exec_reset_flashByte h x) hx
    | powerFail d => exact ⟨.inr ⟨d, rfl⟩, exec_powerFail_changed h hx⟩

/-- Settles O47: the rows of the table, then the bytes any instruction changes. -/
theorem flashStepsStayInTheirTarget : Obligations.FlashStepsStayInTheirTarget := by
  refine ⟨fun s src dst hc => ⟨pfTarget_copy_erase hc, fun hop => ⟨fun hword => ?_, fun hskip => ?_⟩,
    pfTarget_empty_of_op⟩, fun s hf => ⟨pfTarget_block_erase hf, pfTarget_block_write hf, pfTarget_empty_of_op⟩,
    fun s => pfTarget_empty_of_state, fun s t i a ha h hx => ?_⟩
  · exact (pfTarget_copy_write hc hop).trans (congrArg _ (if_neg hword))
  · rw [pfTarget_copy_write hc hop]
    exact if_pos hskip
  · obtain ⟨hi, hlow, hhigh⟩ := exec_changed ha h hx
    exact hi.imp_left fun hstep => ⟨hstep, hlow, hhigh⟩

/-! ### Where the target lies (44 R213, R218, R220) -/

/-- The addresses of one segment have the same segment number (20 R57). -/
theorem div_eq_of_in_segment {size a x : Nat} (h1 : a - a % size ≤ x) (h2 : x < a - a % size + size) :
    x / size = a / size := by
  have hbase := Nat.div_add_mod' a size
  refine Nat.div_eq_of_lt_le (by omega) ?_
  rw [Nat.add_mul, Nat.one_mul]
  omega

section TargetPlace

variable {s : State} {a : Nat} (hinv : Inv s) (hin : InTarget s a)
include hinv hin

/-- A copy's target lies in the image it copies to. -/
theorem Inv.copy_target {src dst : Nat} (hc : Copying s src dst) :
    (s.feOp = .erase ∨ s.feOp = .write) ∧ dst ≤ a ∧ a < dst + s.cfg.imageLen := by
  obtain ⟨hlow, hhigh⟩ := hin
  obtain ⟨-, heven2, -⟩ := admitted_geometry hinv.admitted
  cases hop : s.feOp with
  | erase =>
    have hfit := segment_in_image hinv.admitted (hinv.copy_erasing hc.state hop)
    simp only [pfTarget_copy_erase hc hop] at hlow hhigh
    exact ⟨.inl rfl, by omega, by omega⟩
  | write =>
    obtain ⟨hseg, hoff, heven⟩ := hinv.copy_writing hc.state hop
    have hfit := segment_in_image hinv.admitted hseg
    have hoffset : copyOffset s = s.feSeg * s.cfg.segSize + s.feOff := rfl
    have hsize : (if flashWord s (src + copyOffset s) = s.cfg.erasedWord then 0 else 2) ≤ 2 := by split <;> omega
    simp only [pfTarget_copy_write hc hop] at hlow hhigh
    exact ⟨.inr rfl, by omega, by omega⟩
  | verify => rw [pfTarget_empty_of_op (.inl hop)] at hhigh; omega
  | finish => rw [pfTarget_empty_of_op (.inr hop)] at hhigh; omega

/-- A block write's target lies below DEST_BASE, in the segment of `bw_addr` or among the block's words. -/
theorem Inv.block_target (hf : s.feState = .blockWrite) :
    s.cfg.flashBase ≤ a ∧ a < s.cfg.destBase ∧
      (s.feOp = .erase ∧ a / s.cfg.segSize = s.bwAddr.toNat / s.cfg.segSize ∨
        s.feOp = .write ∧ s.bwAddr.toNat ≤ a ∧ a < s.bwAddr.toNat + s.bwLen.toNat + 1) := by
  obtain ⟨hlow, hhigh⟩ := hin
  obtain ⟨-, hbase, htop⟩ := (hinv.block hf).address
  obtain ⟨-, -, -, -, hflash, -, hdest, -⟩ := admitted_geometry hinv.admitted
  cases hop : s.feOp with
  | erase =>
    obtain ⟨h1, h2⟩ := segment_between hflash hdest hbase (by omega)
    rw [pfTarget_block_erase hf hop] at hlow hhigh
    simp only [segmentBase] at hlow hhigh
    exact ⟨by omega, by omega, .inl ⟨rfl, div_eq_of_in_segment hlow hhigh⟩⟩
  | write =>
    obtain ⟨hoff, -, -, -⟩ := hinv.block_writing hf hop
    rw [pfTarget_block_write hf hop] at hlow hhigh
    exact ⟨by omega, by omega, .inr ⟨rfl, by omega, by omega⟩⟩
  | verify => rw [pfTarget_empty_of_op (.inl hop)] at hhigh; omega
  | finish => rw [pfTarget_empty_of_op (.inr hop)] at hhigh; omega

/-- A target at or above DEST_BASE is a reflash's. -/
theorem Inv.target_above_dest (ha : s.cfg.destBase ≤ a) :
    s.feState = .reflashing ∧ (s.feOp = .erase ∨ s.feOp = .write) := by
  obtain ⟨-, -, -, -, -, -, -, -, hfit, -⟩ := admitted_geometry hinv.admitted
  cases hf : s.feState with
  | idle => have := pfTarget_empty_of_state (.inl hf); omega
  | startupCheck => have := pfTarget_empty_of_state (.inr (.inl hf)); omega
  | rebooted => have := pfTarget_empty_of_state (.inr (.inr hf)); omega
  | selfHeal =>
    obtain ⟨-, -, hhigh⟩ := hinv.copy_target hin (.inr ⟨hf, rfl, rfl⟩)
    omega
  | blockWrite =>
    obtain ⟨-, hhigh, -⟩ := hinv.block_target hin hf
    omega
  | reflashing =>
    obtain ⟨hop, -⟩ := hinv.copy_target hin (.inl ⟨hf, rfl, rfl⟩)
    exact ⟨rfl, hop⟩

end TargetPlace

/-- Settles O45: a byte that changes is in the target, and a target there is a reflash's. -/
theorem destinationIsProtected : Obligations.DestinationIsProtected := by
  intro s t i a hinv h ha hx
  obtain ⟨hi, hin⟩ := exec_changed hinv.admitted h hx
  obtain ⟨hf, hop⟩ := hinv.target_above_dest hin ha
  exact ⟨hf, hop, hi⟩

/-- While a copy runs no instruction changes a byte of the image it copies from (44 R220). -/
theorem exec_source_untouched {i : Instr} {s t : State} {src dst : Nat} (hinv : Inv s) (hc : Copying s src dst)
    (h : exec i s = .next t) {k : Nat} (hk : k < s.cfg.imageLen) : flashByte t (src + k) = flashByte s (src + k) := by
  by_contra hx
  obtain ⟨-, hin⟩ := exec_changed hinv.admitted h hx
  obtain ⟨-, hlow, hhigh⟩ := hinv.copy_target hin hc
  have hapart := hc.images_apart hinv.admitted
  omega

/-- Settles O46: the target of a copy is the other image, and both kinds of reset restart the block. -/
theorem copySourceIsUntouched : Obligations.CopySourceIsUntouched := by
  refine fun s t i src dst hinv hc h => ⟨fun k => exec_source_untouched hinv hc h, ?_⟩
  rintro (⟨c, rfl⟩ | ⟨d, rfl⟩)
  · rcases exec_reset_inv h with rfl | ⟨rfl, -⟩
    · exact .inl rfl
    · exact .inr rfl
  · obtain ⟨u, -, rfl⟩ := exec_powerFail_inv h
    exact .inl rfl

/-- Settles O48: the invariant carries the arbiter's guarantee, and a byte that changes is in the target. -/
theorem blockWritesStayBelowDestination : Obligations.BlockWritesStayBelowDestination := by
  refine ⟨fun s t e hinv h hf => ?_, fun s t a hinv hf h hx => ?_⟩
  · have hblock := (hinv.of_event h).block hf
    obtain ⟨heven, hlow, hhigh⟩ := hblock.address
    exact ⟨heven, hlow, hhigh, hblock.length⟩
  · obtain ⟨-, hin⟩ := exec_changed hinv.admitted h hx
    exact hinv.block_target hin hf

end Sys2Proof.Machine
end

section
/-! Proofs for 44_flash_engine: the transitions of the engine's state, the progress of a copy at every step, and the whole
copy. -/

namespace Sys2Proof.Machine

/-! ### A FLASH_STEP by the engine's state (44 R200, R205) -/

theorem EngineMoves.feState {s t : State} (h : EngineMoves s t) : t.feState = s.feState := by
  cases h
  rfl

/-- The startup check's outcome for each pair of verdicts (44 R206). -/
theorem exec_flashStep_startup_cases {s t : State} (ha : s.cfg.Admitted) (hf : s.feState = .startupCheck)
    (h : exec .flashStep s = .next t) :
    (ImageBad s s.cfg.destBase ∧ ¬ ImageBad s s.cfg.originBase ∧
      t = enterCopy .reflashing (emit (.check true false) s)) ∨
    (ImageBad s s.cfg.destBase ∧ ImageBad s s.cfg.originBase ∧
      t = boot { emit (.check true true) s with flashErr := true }) ∨
    (¬ ImageBad s s.cfg.destBase ∧ ImageBad s s.cfg.originBase ∧
      t = enterCopy .selfHeal (emit (.check false true) s)) ∨
    (¬ ImageBad s s.cfg.destBase ∧ ¬ ImageBad s s.cfg.originBase ∧ t = boot (emit (.check false false) s)) := by
  by_cases hdest : ImageBad s s.cfg.destBase <;> by_cases horigin : ImageBad s s.cfg.originBase
  · rw [exec_flashStep_boots_degraded ha hf hdest horigin] at h
    cases h
    exact .inr (.inl ⟨hdest, horigin, rfl⟩)
  · rw [exec_flashStep_reflashes ha hf hdest horigin] at h
    cases h
    exact .inl ⟨hdest, horigin, rfl⟩
  · rw [exec_flashStep_heals ha hf hdest horigin] at h
    cases h
    exact .inr (.inr (.inl ⟨hdest, horigin, rfl⟩))
  · rw [exec_flashStep_boots ha hf hdest horigin] at h
    cases h
    exact .inr (.inr (.inr ⟨hdest, horigin, rfl⟩))

/-- A copy erases or writes and stays where it is, or stands at FINISH (44 R205). -/
theorem Inv.copy_works_or_finishes {s : State} (h : Inv s) (hf : s.feState = .selfHeal ∨ s.feState = .reflashing) :
    (s.feOp = .erase ∨ s.feOp = .write) ∨ s.feOp = .finish ∧ s.feSeg = s.cfg.nseg := by
  rcases h.copy hf with ⟨hop, -⟩ | ⟨hop, -⟩ | hfinish
  · exact .inl (.inl hop)
  · exact .inl (.inr hop)
  · exact .inr hfinish

theorem exec_flashStep_copy_moves {s t : State} {src dst : Nat} (hc : Copying s src dst)
    (hop : s.feOp = .erase ∨ s.feOp = .write) (h : exec .flashStep s = .next t) : EngineMoves s t := by
  rcases hop with hop | hop
  · rw [exec_flashStep_of_copy_erase hc hop] at h
    exact copyErase_moves (finish_next h)
  · rw [exec_flashStep_of_copy_write hc hop] at h
    exact copyWrite_moves (finish_next h)

/-- The end of a self-heal boots, whatever its check finds (44 R212). -/
theorem exec_flashStep_healed_cases {s : State} (ha : s.cfg.Admitted) (hf : s.feState = .selfHeal)
    (hop : s.feOp = .finish) : ∃ err, exec .flashStep s = .next (boot { s with flashErr := err }) := by
  by_cases hbad : ImageBad s s.cfg.originBase
  · exact ⟨true, exec_flashStep_healed_invalid ha hf hop hbad⟩
  · exact ⟨s.flashErr, exec_flashStep_healed ha hf hop hbad⟩

/-- A block write goes on, or VERIFY ends it with a reply (44 R215 to R217). -/
theorem exec_flashStep_block_cases {s t : State} (hinv : Inv s) (hf : s.feState = .blockWrite)
    (h : exec .flashStep s = .next t) :
    EngineMoves s t ∨ s.feOp = .verify ∧ ∃ source status,
      t = replied s.cfg.ackCode source [status] { s with feState := .idle } := by
  rcases (hinv.block hf).op with ⟨hop, -⟩ | ⟨hop, -⟩ | hop
  · rw [exec_flashStep_of_block_erase hf hop] at h
    exact .inl (blockErase_moves (finish_next h))
  · rw [exec_flashStep_of_block_write hf hop] at h
    exact .inl (blockWriteWord_moves (finish_next h))
  · rw [exec_flashStep_of_block_verify hf hop] at h
    exact .inr ⟨hop, blockVerify_inv (finish_next h)⟩

theorem exec_flashStep_of_still {s t : State} (hf : s.feState = .idle ∨ s.feState = .rebooted)
    (h : exec .flashStep s = .next t) : t = s := by
  rw [exec_flashStep_of_not_enabled (by rcases hf with hf | hf <;> simp [FlashStepEnabled, hf])] at h
  cases h
  rfl

/-! ### The transitions of the engine's state (44 R200) -/

/-- The transitions that a FLASH_STEP takes: the startup check's, and the ends of a self-heal, a block write and a
reflash. -/
inductive StepTransition (s t : State) : Prop
  | checked (hf : s.feState = .startupCheck)
  | healed (hf : s.feState = .selfHeal) (hop : s.feOp = .finish) (hseg : s.feSeg = s.cfg.nseg)
      (ht : t.feState = .idle ∧ t.booted = true)
  | verified (hf : s.feState = .blockWrite) (hop : s.feOp = .verify) (ht : t.feState = .idle ∧ t.txPhase = .pre)
  | rebooted (hf : s.feState = .reflashing) (hop : s.feOp = .finish) (hseg : s.feSeg = s.cfg.nseg)
      (ht : t.feState = .rebooted)

theorem exec_flashStep_transition {s t : State} (hinv : Inv s) (h : exec .flashStep s = .next t)
    (hne : t.feState ≠ s.feState) : StepTransition s t := by
  cases hf : s.feState with
  | idle => exact absurd (congrArg State.feState (exec_flashStep_of_still (.inl hf) h)) hne
  | rebooted => exact absurd (congrArg State.feState (exec_flashStep_of_still (.inr hf) h)) hne
  | startupCheck => exact .checked hf
  | selfHeal =>
    rcases hinv.copy_works_or_finishes (.inl hf) with hop | ⟨hop, hseg⟩
    · exact absurd (exec_flashStep_copy_moves (.inr ⟨hf, rfl, rfl⟩) hop h).feState hne
    · obtain ⟨err, hboot⟩ := exec_flashStep_healed_cases hinv.admitted hf hop
      cases h.symm.trans hboot
      exact .healed hf hop hseg ⟨rfl, rfl⟩
  | reflashing =>
    rcases hinv.copy_works_or_finishes (.inr hf) with hop | ⟨hop, hseg⟩
    · exact absurd (exec_flashStep_copy_moves (.inl ⟨hf, rfl, rfl⟩) hop h).feState hne
    · cases h.symm.trans (exec_flashStep_reflashFinish hf hop)
      exact .rebooted hf hop hseg rfl
  | blockWrite =>
    rcases exec_flashStep_block_cases hinv hf h with hmoves | ⟨hop, source, status, rfl⟩
    · exact absurd hmoves.feState hne
    · exact .verified hf hop ⟨rfl, rfl⟩

/-- Both kinds of reset enter STARTUP_CHECK where they are enabled (44 R202). -/
theorem exec_reset_enters_check {s : State} {e : Event} (hinv : Inv s) (he : EventResets e)
    (hw : e = .reset .watchdog → s.feState = .rebooted) :
    ∃ t, exec e.instr s = .next t ∧ t.feState = .startupCheck := by
  obtain ⟨t, ht, -⟩ := exec_event_keeps hinv e
  refine ⟨t, ht, ?_⟩
  rcases he with ⟨c, rfl⟩ | ⟨d, rfl⟩
  · rcases exec_reset_inv ht with rfl | ⟨-, hoff⟩
    · rfl
    · exact absurd (fun hc => hw (by rw [hc])) hoff
  · obtain ⟨u, -, rfl⟩ := exec_powerFail_inv ht
    rfl

section FrameStarts

variable {s : State} {frame : Bytes} (hinv : Inv s) (harrived : FrameArrived s frame)
include harrived

theorem exec_poll_starts_block {lo hi n : Byte} {data : Bytes}
    (hdecode : decodeFrame s.cfg s.flashErr frame = .ok (.writeFwBlock (lo :: hi :: n :: data)))
    (hdata : data.length = n.toNat) (haddr : BlockAddressOk s.cfg (le16 lo hi) n) :
    ∃ t, exec .poll s = .next t ∧ t.feState = .blockWrite ∧ t.bwAddr = le16 lo hi ∧ t.bwLen = n := by
  rw [execPoll_of_decoded harrived hdecode]
  exact ⟨_, exec_writeFwBlock_started (blockFields_of_length lo hi hdata) haddr, rfl, rfl, rfl⟩

include hinv

theorem exec_poll_starts_reflash {extra : Bytes}
    (hdecode : decodeFrame s.cfg s.flashErr frame = .ok (.writeReflash extra))
    (hgood : ¬ ImageBad s s.cfg.originBase) : ∃ t, exec .poll s = .next t ∧ t.feState = .reflashing := by
  rw [execPoll_of_decoded harrived hdecode]
  refine ⟨_, exec_writeReflash_started (source := frame.getD 0 0) ?_ ?_ extra, rfl⟩
  · exact served_of_frameArrived harrived hinv.admitted
  · refine mt (imageBad_congr hinv.admitted ?_ fun k _ => flashByte_congr ?_ ?_ _).1 hgood <;> rfl

end FrameStarts

/-- Settles O50: the outcomes of an event, and of a FLASH_STEP by the engine's state, give the table; each transition is
the rule of its operation. -/
theorem engineStateTransitions : Obligations.EngineStateTransitions := by
  refine ⟨fun s t e hinv h hne => ?table, fun s e => exec_reset_enters_check, fun s hinv hf => ?startup,
    fun s hinv hop => ⟨fun hf => ?healed, fun hf => ⟨_, exec_flashStep_reflashFinish hf hop, rfl⟩⟩,
    fun s hinv hf hop => ?verified, fun s frame hinv harrived =>
      ⟨fun lo hi n data => exec_poll_starts_block harrived, fun extra => exec_poll_starts_reflash hinv harrived⟩⟩
  case table =>
    cases exec_event_engine hinv.admitted h with
    | rests hkeep => exact absurd hkeep.fe_state hne
    | starts_block he hp hu addr len ht =>
      have hblock : t.feState = .blockWrite := by rw [ht]; rfl
      exact .inr (.inr (.inr (.inl ⟨he, hp.2, hblock, ((hinv.of_event h).block hblock).address⟩)))
    | starts_reflash he hp hu hgood ht =>
      exact .inr (.inr (.inr (.inr (.inr (.inl ⟨he, hp.2, by rw [ht]; rfl, hgood⟩)))))
    | restarts he ht => exact .inl ⟨he, ht⟩
    | steps he =>
      subst he
      cases exec_flashStep_transition hinv h hne with
      | checked hf =>
        refine .inr (.inl ⟨rfl, hf, ?_⟩)
        rcases exec_flashStep_startup_cases hinv.admitted hf h with
          ⟨hd, ho, rfl⟩ | ⟨hd, ho, rfl⟩ | ⟨hd, ho, rfl⟩ | ⟨hd, ho, rfl⟩
        · exact .inr (.inr ⟨rfl, hd, ho⟩)
        · exact .inl ⟨rfl, rfl, .inr ⟨hd, ho, rfl⟩⟩
        · exact .inr (.inl ⟨rfl, hd, ho⟩)
        · exact .inl ⟨rfl, rfl, .inl ⟨hd, ho⟩⟩
      | healed hf hop hseg ht => exact .inr (.inr (.inl ⟨rfl, hf, hop, hseg, ht⟩))
      | verified hf hop ht => exact .inr (.inr (.inr (.inr (.inl ⟨rfl, hf, hop, ht⟩))))
      | rebooted hf hop hseg ht => exact .inr (.inr (.inr (.inr (.inr (.inr ⟨rfl, hf, hop, hseg, ht⟩)))))
  case startup =>
    obtain ⟨t, ht, -⟩ := exec_event_keeps hinv .flashStep
    refine ⟨t, ht, ?_⟩
    rcases exec_flashStep_startup_cases hinv.admitted hf ht with
      ⟨hd, ho, rfl⟩ | ⟨hd, ho, rfl⟩ | ⟨hd, ho, rfl⟩ | ⟨hd, ho, rfl⟩ <;> simp [hd, ho]
  case healed =>
    obtain ⟨err, hboot⟩ := exec_flashStep_healed_cases hinv.admitted hf hop
    exact ⟨_, hboot, rfl, rfl⟩
  case verified =>
    obtain ⟨t, ht, -⟩ := exec_event_keeps hinv .flashStep
    have hverify := ht
    rw [Event.instr, exec_flashStep_of_block_verify hf hop] at hverify
    obtain ⟨source, status, rfl⟩ := blockVerify_inv (finish_next hverify)
    exact ⟨_, ht, rfl, rfl⟩

/-! ### The copy's progress (44 R208, R209) -/

theorem CopyInv.progress {s : State} {src dst : Nat} (h : CopyInv s) (hc : Copying s src dst) :
    CopyProgress s src dst := by
  rcases hc with ⟨hf, rfl, rfl⟩ | ⟨hf, rfl, rfl⟩
  · exact h.reflash hf
  · exact h.self_heal hf

theorem CopyInv.of_copying {s : State} {src dst : Nat} (hc : Copying s src dst)
    (hstart : s.feOp ≠ .write → s.feOff = 0) (hp : CopyProgress s src dst) : CopyInv s := by
  rcases hc with ⟨hf, rfl, rfl⟩ | ⟨hf, rfl, rfl⟩
  · exact ⟨fun _ => hstart, fun _ => hp, by simp [hf], by simp [hf]⟩
  · exact ⟨fun _ => hstart, by simp [hf], fun _ => hp, by simp [hf]⟩

/-- Where no copy runs and none has just ended there is no progress to keep. -/
theorem CopyInv.of_no_copy {s : State}
    (h : s.feState = .idle ∨ s.feState = .startupCheck ∨ s.feState = .blockWrite) : CopyInv s := by
  rcases h with h | h | h <;> exact ⟨by simp [h], by simp [h], by simp [h], by simp [h]⟩

theorem CopyInv.of_keepsEngine {s t : State} (h : CopyInv s) (k : KeepsEngine s t) : CopyInv t := by
  have hoffset : copyOffset t = copyOffset s := by rw [copyOffset, copyOffset, k.cfg, k.fe_seg, k.fe_off]
  have hprogress (src dst : Nat) (hp : CopyProgress s src dst) : CopyProgress t src dst := by
    simpa only [CopyProgress, CopiedUpTo, hoffset, k.flashByte, k.fe_op, k.fe_seg, k.fe_off, k.cfg] using hp
  constructor
  · simpa only [k.fe_state, k.fe_op, k.fe_off] using h.segment_start
  · rw [k.fe_state, k.cfg]
    exact fun hf => hprogress _ _ (h.reflash hf)
  · rw [k.fe_state, k.cfg]
    exact fun hf => hprogress _ _ (h.self_heal hf)
  · simpa only [k.fe_state, CopiedUpTo, k.flashByte, k.cfg] using h.rebooted

/-- Nothing has been copied yet when a copy is entered. -/
theorem copyInv_enterCopy {target : FeState} (ht : target = .selfHeal ∨ target = .reflashing) (s : State) :
    CopyInv (enterCopy target s) := by
  refine .of_copying (copying_of_state ht) (fun _ => rfl) ⟨fun k hk => ?_, fun hop => ?_⟩
  · simp [copyOffset] at hk
  · cases hop

/-- An erased byte takes every value where `ProgramsErased` holds (log 11). -/
theorem programByte_erased {c : Config} (h : ProgramsErased c) (new : Byte) :
    programByte c c.erasedByte new = new := by
  rcases h with h | h
  · rw [h, programByte_ones]
  · exact programByte_overwrite h _ _

@[simp] theorem pastWord_cfg (s : State) : (pastWord s).cfg = s.cfg := by
  unfold pastWord
  split <;> rfl

@[simp] theorem pastWord_feState (s : State) : (pastWord s).feState = s.feState := by
  unfold pastWord
  split <;> rfl

/-- A word moves the copy on by its two bytes, across the end of a segment too. -/
theorem copyOffset_pastWord (s : State) : copyOffset (pastWord s) = copyOffset s + 2 := by
  unfold pastWord
  split
  · simp only [copyOffset, Nat.add_mul]
    omega
  · rfl

theorem copyOffset_wordCopied (s : State) (src dst : Nat) : copyOffset (wordCopied s src dst) = copyOffset s := by
  obtain ⟨flash, h⟩ := wordCopied_eq s src dst
  rw [h]
  rfl

theorem flashByte_wordCopied_other {s : State} {src dst x : Nat} (h0 : x ≠ dst + copyOffset s)
    (h1 : x ≠ dst + copyOffset s + 1) : flashByte (wordCopied s src dst) x = flashByte s x := by
  unfold wordCopied
  split
  · rfl
  · exact flashByte_withWord_other s _ h0 h1

/-- A word brought to erased bytes, or skipped because it is erased itself, is then the same in both images. -/
theorem wordCopied_copies {s : State} {src dst : Nat} (hp : ProgramsErased s.cfg)
    (h0 : flashByte s (dst + copyOffset s) = s.cfg.erasedByte)
    (h1 : flashByte s (dst + copyOffset s + 1) = s.cfg.erasedByte) :
    flashByte (wordCopied s src dst) (dst + copyOffset s) = flashByte s (src + copyOffset s) ∧
      flashByte (wordCopied s src dst) (dst + copyOffset s + 1) = flashByte s (src + copyOffset s + 1) := by
  by_cases hskip : flashWord s (src + copyOffset s) = s.cfg.erasedWord
  · obtain ⟨hlo, hhi⟩ := le16_inj.1 hskip
    rw [flashByte_wordCopied_erased hskip, flashByte_wordCopied_erased hskip, h0, h1, hlo, hhi]
    exact ⟨rfl, rfl⟩
  · rw [flashByte_wordCopied hskip, flashByte_wordCopied hskip, if_pos rfl, if_neg (by omega), if_pos rfl, h0, h1,
      programByte_erased hp, programByte_erased hp]
    exact ⟨rfl, rfl⟩

section Progress

variable {s : State} {src dst : Nat} (hinv : Inv s) (hc : Copying s src dst)
include hinv hc

/-- After a segment's erase the segments before it are still copied, and it is erased whole. -/
theorem copyProgress_segmentErased (hseg : s.feSeg < s.cfg.nseg) (hop : s.feOp = .erase)
    (hcopied : CopiedUpTo s src dst (s.feSeg * s.cfg.segSize)) : CopyProgress (segmentErased s dst) src dst := by
  have hexec := exec_flashStep_copyErase hinv.admitted hc hseg hop
  have hfit := segment_in_image hinv.admitted hseg
  refine ⟨fun k (hk : k < s.feSeg * s.cfg.segSize + 0) => ?_, fun _ k _ (hk : k < s.cfg.segSize) => ?_⟩
  · rw [exec_source_untouched hinv hc hexec (by omega), flashByte_segmentErased, if_neg (by omega)]
    exact hcopied k hk
  · show flashByte (segmentErased s dst) (dst + (s.feSeg * s.cfg.segSize + k)) = s.cfg.erasedByte
    rw [flashByte_segmentErased, if_pos (by omega)]

/-- After a word the copied part is two bytes longer, and what is ahead in the segment is still erased. -/
theorem copyProgress_pastWord (hp : ProgramsErased s.cfg) (hop : s.feOp = .write) (hprogress : CopyProgress s src dst) :
    CopyProgress (pastWord (wordCopied s src dst)) src dst := by
  obtain ⟨hseg, hoff, heven⟩ := hinv.copy_writing hc.state hop
  obtain ⟨-, heven2, -⟩ := admitted_geometry hinv.admitted
  have hexec := exec_flashStep_copyWrite hinv.admitted hc hseg hoff heven hop
  have hfit := segment_in_image hinv.admitted hseg
  have hoffset : copyOffset s = s.feSeg * s.cfg.segSize + s.feOff := rfl
  obtain ⟨hcopied, hahead⟩ := hprogress
  obtain ⟨hlo, hhi⟩ := wordCopied_copies (src := src) hp (hahead hop s.feOff le_rfl hoff)
    (hahead hop (s.feOff + 1) (Nat.le_succ _) (by omega))
  constructor
  · intro k hk
    rw [copyOffset_pastWord, copyOffset_wordCopied] at hk
    rw [exec_source_untouched hinv hc hexec (by omega), flashByte_pastWord]
    rcases Nat.lt_trichotomy k (copyOffset s) with hbefore | rfl | hafter
    · rw [flashByte_wordCopied_other (by omega) (by omega)]
      exact hcopied k hbefore
    · exact hlo
    · obtain rfl : k = copyOffset s + 1 := by omega
      exact hhi
  · obtain ⟨flash, hword⟩ := wordCopied_eq s src dst
    intro hwrite k hlow hhigh
    rw [flashByte_pastWord]
    rw [hword] at hwrite hlow hhigh ⊢
    by_cases hlast : s.feOff + 2 = s.cfg.segSize
    · rw [pastWord_last (s := { s with flash := flash }) hlast] at hwrite
      simp only at hwrite
      split at hwrite <;> cases hwrite
    · rw [pastWord_within (s := { s with flash := flash }) hlast] at hlow hhigh ⊢
      simp only at hlow hhigh ⊢
      rw [← hword, flashByte_wordCopied_other (by omega) (by omega)]
      exact hahead hop k (by omega) hhigh

/-- The offset at FINISH is the image's length: every segment has been copied (44 R209). -/
theorem copyOffset_at_finish (hci : CopyInv s) (hop : s.feOp = .finish) : copyOffset s = s.cfg.imageLen := by
  have hseg : s.feSeg = s.cfg.nseg := by simpa [CopyPosition, hop] using hinv.copy hc.state
  rw [copyOffset, hci.segment_start hc.state (by simp [hop]), hseg, nseg_mul hinv.admitted, Nat.add_zero]

/-- ERASE and WRITE go on with the same copy, and keep its progress. -/
theorem exec_flashStep_copy_keeps {t : State} (hci : CopyInv s) (hp : ProgramsErased s.cfg)
    (hop : s.feOp = .erase ∨ s.feOp = .write) (h : exec .flashStep s = .next t) : CopyInv t := by
  rcases hop with hop | hop
  · have hseg := hinv.copy_erasing hc.state hop
    rw [exec_flashStep_copyErase hinv.admitted hc hseg hop] at h
    cases h
    have hcopied : CopiedUpTo s src dst (s.feSeg * s.cfg.segSize) := fun k hk =>
      (hci.progress hc).1 k (Nat.lt_add_right _ hk)
    exact .of_copying (s := segmentErased s dst) hc (fun _ => rfl) (copyProgress_segmentErased hinv hc hseg hop hcopied)
  · obtain ⟨hseg, hoff, heven⟩ := hinv.copy_writing hc.state hop
    rw [exec_flashStep_copyWrite hinv.admitted hc hseg hoff heven hop] at h
    cases h
    obtain ⟨flash, hword⟩ := wordCopied_eq s src dst
    refine .of_copying ?_ ?_ (copyProgress_pastWord hinv hc hp hop (hci.progress hc))
    · rw [hword]
      simpa only [Copying, pastWord_feState, pastWord_cfg] using hc
    · rw [hword, pastWord]
      split
      · exact fun _ => rfl
      · exact fun hne => absurd hop hne

end Progress

theorem exec_flashStep_copyInv {s t : State} (hinv : Inv s) (hci : CopyInv s) (hp : ProgramsErased s.cfg)
    (h : exec .flashStep s = .next t) : CopyInv t := by
  cases hf : s.feState with
  | idle => exact exec_flashStep_of_still (.inl hf) h ▸ hci
  | rebooted => exact exec_flashStep_of_still (.inr hf) h ▸ hci
  | startupCheck =>
    rcases exec_flashStep_startup_cases hinv.admitted hf h with
      ⟨-, -, rfl⟩ | ⟨-, -, rfl⟩ | ⟨-, -, rfl⟩ | ⟨-, -, rfl⟩
    · exact copyInv_enterCopy (.inr rfl) _
    · exact .of_no_copy (.inl rfl)
    · exact copyInv_enterCopy (.inl rfl) _
    · exact .of_no_copy (.inl rfl)
  | selfHeal =>
    have hc : Copying s s.cfg.destBase s.cfg.originBase := .inr ⟨hf, rfl, rfl⟩
    rcases hinv.copy_works_or_finishes (.inl hf) with hop | ⟨hop, -⟩
    · exact exec_flashStep_copy_keeps hinv hc hci hp hop h
    · obtain ⟨err, hboot⟩ := exec_flashStep_healed_cases hinv.admitted hf hop
      cases h.symm.trans hboot
      exact .of_no_copy (.inl rfl)
  | reflashing =>
    have hc : Copying s s.cfg.originBase s.cfg.destBase := .inl ⟨hf, rfl, rfl⟩
    rcases hinv.copy_works_or_finishes (.inr hf) with hop | ⟨hop, -⟩
    · exact exec_flashStep_copy_keeps hinv hc hci hp hop h
    · cases h.symm.trans (exec_flashStep_reflashFinish hf hop)
      have hcopied := (hci.progress hc).1
      rw [copyOffset_at_finish hinv hc hci hop] at hcopied
      exact ⟨by simp, by simp, by simp, fun _ => hcopied⟩
  | blockWrite =>
    rcases exec_flashStep_block_cases hinv hf h with hmoves | ⟨-, source, status, rfl⟩
    · exact .of_no_copy (.inr (.inr (hmoves.feState.trans hf)))
    · exact .of_no_copy (.inl rfl)

theorem exec_event_copyInv {s t : State} {e : Event} (hinv : Inv s) (hci : CopyInv s) (hp : ProgramsErased s.cfg)
    (h : exec e.instr s = .next t) : CopyInv t := by
  cases exec_event_engine hinv.admitted h with
  | rests hkeep => exact hci.of_keepsEngine hkeep
  | starts_block _ _ _ addr len ht => exact .of_no_copy (.inr (.inr (by rw [ht]; rfl)))
  | starts_reflash _ _ _ _ ht => exact ht ▸ copyInv_enterCopy (.inr rfl) _
  | restarts _ ht => exact .of_no_copy (.inr (.inl ht))
  | steps he =>
    subst he
    exact exec_flashStep_copyInv hinv hci hp h

theorem takeEvent_keepsEngine (s : State) (items : List Stimulus) : KeepsEngine s (takeEvent s items).2 := by
  induction items generalizing s with
  | nil => exact { KeepsEngine.refl s with }
  | cons item rest ih =>
    cases item with
    | event e => exact { KeepsEngine.refl s with }
    | snap bytes =>
      have hqueued : KeepsEngine s { s with snapQueue := s.snapQueue ++ [bytes] } := { KeepsEngine.refl s with }
      exact hqueued.trans (ih _)
    | drain =>
      rw [takeEvent]
      split
      · exact { KeepsEngine.refl s with }
      · split
        · exact { KeepsEngine.refl s with }
        · exact ih s
    | flash =>
      rw [takeEvent]
      split
      · exact { KeepsEngine.refl s with }
      · exact ih s

/-- Settles O56: taking the event leaves the engine alone, and each event keeps the progress. -/
theorem everyStepKeepsTheCopyProgress : Obligations.EveryStepKeepsTheCopyProgress := by
  intro s t hinv hci hp h
  rw [step_of_admitted hinv.admitted] at h
  have hkeep : KeepsEngine s (nextEvent s).2 := takeEvent_keepsEngine s s.script
  exact exec_event_copyInv (takeEvent_keeps hinv s.script) (hci.of_keepsEngine hkeep) (hkeep.cfg ▸ hp) h

/-! ### The whole copy (44 R205, R212, R219) -/

theorem flashSteps_succ {s t : State} (h : exec .flashStep s = .next t) (n : Nat) :
    flashSteps (n + 1) s = flashSteps n t := by
  rw [flashSteps, List.replicate_succ, runEvents, Event.instr, h]

/-- One more FLASH_STEP at the end of a run. -/
theorem flashSteps_append {s t u : State} {n : Nat} (h : flashSteps n s = .next t) (hu : exec .flashStep t = .next u) :
    flashSteps (n + 1) s = .next u := by
  induction n generalizing s with
  | zero =>
    cases h
    exact flashSteps_succ hu 0
  | succ n ih =>
    obtain ⟨v, hv, h⟩ := runEvents_cons h
    rw [flashSteps_succ hv]
    exact ih h

/-- The micro-operations a copy still takes, FINISH included (44 R205). -/
def copyStepsLeft (s : State) : Nat :=
  match s.feOp with
  | .erase => (s.cfg.nseg - s.feSeg) * (1 + s.cfg.segSize / 2) + 1
  | .write => (s.cfg.nseg - (s.feSeg + 1)) * (1 + s.cfg.segSize / 2) + (s.cfg.segSize - s.feOff) / 2 + 1
  | .verify | .finish => 1

theorem copyStepsLeft_pos (s : State) : 0 < copyStepsLeft s := by
  unfold copyStepsLeft
  split <;> omega

theorem copyStepsLeft_erase {s : State} (h : s.feOp = .erase) :
    copyStepsLeft s = (s.cfg.nseg - s.feSeg) * (1 + s.cfg.segSize / 2) + 1 := by
  simp only [copyStepsLeft, h]

theorem copyStepsLeft_write {s : State} (h : s.feOp = .write) :
    copyStepsLeft s =
      (s.cfg.nseg - (s.feSeg + 1)) * (1 + s.cfg.segSize / 2) + (s.cfg.segSize - s.feOff) / 2 + 1 := by
  simp only [copyStepsLeft, h]

theorem copyStepsLeft_finish {s : State} (h : s.feOp = .finish) : copyStepsLeft s = 1 := by
  simp only [copyStepsLeft, h]

theorem copyStepsLeft_segmentErased {s : State} {dst : Nat} (hseg : s.feSeg < s.cfg.nseg) (hop : s.feOp = .erase) :
    copyStepsLeft s = copyStepsLeft (segmentErased s dst) + 1 := by
  have hsplit : s.cfg.nseg - s.feSeg = s.cfg.nseg - (s.feSeg + 1) + 1 := by omega
  rw [copyStepsLeft_erase hop, copyStepsLeft_write (s := segmentErased s dst) rfl, hsplit, Nat.add_mul, Nat.one_mul]
  simp only [segmentErased]
  omega

theorem copyStepsLeft_pastWord {s : State} (hseg : s.feSeg < s.cfg.nseg) (hoff : s.feOff + 2 ≤ s.cfg.segSize)
    (hop : s.feOp = .write) : copyStepsLeft s = copyStepsLeft (pastWord s) + 1 := by
  rw [copyStepsLeft_write hop]
  by_cases hlast : s.feOff + 2 = s.cfg.segSize
  · rw [pastWord_last hlast]
    by_cases hmore : s.feSeg + 1 < s.cfg.nseg
    · rw [copyStepsLeft_erase (by exact if_pos hmore)]
      simp only
      omega
    · rw [copyStepsLeft_finish (by exact if_neg hmore), show s.cfg.nseg - (s.feSeg + 1) = 0 by omega, Nat.zero_mul]
      omega
  · rw [pastWord_within hlast, copyStepsLeft_write (s := { s with feOff := s.feOff + 2 }) hop]
    simp only
    omega

/-- The state `t` is a later one of the copy that runs in `s`. -/
structure CopyRuns (s : State) (src dst : Nat) (t : State) : Prop where
  inv : Inv t
  copying : Copying t src dst
  moves : EngineMoves s t
  source : ∀ k < s.cfg.imageLen, flashByte t (src + k) = flashByte s (src + k)

theorem EngineMoves.cfg {s t : State} (h : EngineMoves s t) : t.cfg = s.cfg := by
  cases h
  rfl

theorem CopyRuns.refl {s : State} {src dst : Nat} (hinv : Inv s) (hc : Copying s src dst) : CopyRuns s src dst s :=
  ⟨hinv, hc, .refl s, fun _ _ => rfl⟩

theorem CopyRuns.trans {s t u : State} {src dst : Nat} (h : CopyRuns s src dst t) (k : CopyRuns t src dst u) :
    CopyRuns s src dst u :=
  ⟨k.inv, k.copying, h.moves.trans k.moves, fun j hj =>
    (k.source j (h.moves.cfg ▸ hj)).trans (h.source j hj)⟩

/-- ERASE and WRITE are one of the micro-operations a copy still takes. -/
theorem exec_flashStep_copyRuns {s : State} {src dst : Nat} (hinv : Inv s) (hc : Copying s src dst)
    (hop : s.feOp = .erase ∨ s.feOp = .write) :
    ∃ t, exec .flashStep s = .next t ∧ CopyRuns s src dst t ∧ copyStepsLeft s = copyStepsLeft t + 1 := by
  obtain ⟨t, ht, hinv'⟩ := exec_event_keeps hinv .flashStep
  have hmoves := exec_flashStep_copy_moves hc hop ht
  have hc' : Copying t src dst := by simpa only [Copying, hmoves.feState, hmoves.cfg] using hc
  refine ⟨t, ht, ⟨hinv', hc', hmoves, fun k => exec_source_untouched hinv hc ht⟩, ?_⟩
  rcases hop with hop | hop
  · have hseg := hinv.copy_erasing hc.state hop
    cases ht.symm.trans (exec_flashStep_copyErase hinv.admitted hc hseg hop)
    exact copyStepsLeft_segmentErased hseg hop
  · obtain ⟨hseg, hoff, heven⟩ := hinv.copy_writing hc.state hop
    obtain ⟨-, heven2, -⟩ := admitted_geometry hinv.admitted
    obtain ⟨flash, hword⟩ := wordCopied_eq s src dst
    cases ht.symm.trans (exec_flashStep_copyWrite hinv.admitted hc hseg hoff heven hop)
    rw [hword]
    exact copyStepsLeft_pastWord (s := { s with flash := flash }) hseg (by simp only; omega) hop

/-- A copy whose progress holds comes to FINISH with the images equal. -/
theorem copy_reaches_finish {src dst n : Nat} {s : State} (hinv : Inv s) (hci : CopyInv s) (hp : ProgramsErased s.cfg)
    (hc : Copying s src dst) (hleft : copyStepsLeft s = n + 1) :
    ∃ t, flashSteps n s = .next t ∧ CopyRuns s src dst t ∧ t.feOp = .finish ∧ CopiedUpTo t src dst s.cfg.imageLen := by
  induction n generalizing s with
  | zero =>
    rcases hinv.copy_works_or_finishes hc.state with hop | ⟨hop, -⟩
    · obtain ⟨t, -, -, hone⟩ := exec_flashStep_copyRuns hinv hc hop
      have hpos := copyStepsLeft_pos t
      omega
    · refine ⟨s, rfl, .refl hinv hc, hop, ?_⟩
      rw [← copyOffset_at_finish hinv hc hci hop]
      exact (hci.progress hc).1
  | succ n ih =>
    rcases hinv.copy_works_or_finishes hc.state with hop | ⟨hop, -⟩
    · obtain ⟨t, ht, hruns, hone⟩ := exec_flashStep_copyRuns hinv hc hop
      have hci' := exec_flashStep_copy_keeps hinv hc hci hp hop ht
      have hcfg := hruns.moves.cfg
      obtain ⟨u, hu, hruns', hfinish, hcopied⟩ := ih hruns.inv hci' (hcfg ▸ hp) hruns.copying (by omega)
      exact ⟨u, (flashSteps_succ ht n).trans hu, hruns.trans hruns', hfinish, hcfg ▸ hcopied⟩
    · rw [copyStepsLeft_finish hop] at hleft
      omega

/-- From its first ERASE, whatever the target holds, a copy comes to FINISH with the images equal. -/
theorem copy_from_start {src dst : Nat} {s : State} (hinv : Inv s) (hp : ProgramsErased s.cfg)
    (hc : Copying s src dst) (hop : s.feOp = .erase) (hseg : s.feSeg = 0) :
    ∃ t, flashSteps (s.cfg.nseg * (1 + s.cfg.segSize / 2)) s = .next t ∧ CopyRuns s src dst t ∧ t.feOp = .finish ∧
      CopiedUpTo t src dst s.cfg.imageLen := by
  have hlt := hinv.copy_erasing hc.state hop
  obtain ⟨u, hu, hruns, hone⟩ := exec_flashStep_copyRuns hinv hc (.inl hop)
  obtain ⟨n, hn⟩ := Nat.exists_eq_add_one_of_ne_zero (copyStepsLeft_pos u).ne'
  have hsteps : s.cfg.nseg * (1 + s.cfg.segSize / 2) = n + 1 := by
    rw [copyStepsLeft_erase hop, hseg, Nat.sub_zero] at hone
    omega
  have hcopied : CopiedUpTo s src dst (s.feSeg * s.cfg.segSize) := fun k hk => by simp [hseg] at hk
  have hci : CopyInv u := by
    cases hu.symm.trans (exec_flashStep_copyErase hinv.admitted hc hlt hop)
    exact .of_copying hruns.copying (fun _ => rfl) (copyProgress_segmentErased hinv hc hlt hop hcopied)
  have hcfg := hruns.moves.cfg
  obtain ⟨t, ht, hruns', hfinish, hequal⟩ := copy_reaches_finish hruns.inv hci (hcfg ▸ hp) hruns.copying hn
  rw [hsteps, flashSteps_succ hu]
  exact ⟨t, ht, hruns.trans hruns', hfinish, hcfg ▸ hequal⟩

/-- FINISH changes no flash byte; a reflash ends REBOOTED, and a self-heal of a valid image boots (44 R210, R212). -/
theorem exec_flashStep_copyFinish {s : State} {src dst : Nat} (hinv : Inv s) (hc : Copying s src dst)
    (hop : s.feOp = .finish) :
    ∃ t, exec .flashStep s = .next t ∧ (∀ x, flashByte t x = flashByte s x) ∧
      (s.feState = .reflashing → t = reflashFinish s) ∧
      (s.feState = .selfHeal → ¬ ImageBad s s.cfg.originBase → t = boot s) := by
  rcases hc.state with hf | hf
  · obtain ⟨err, hboot⟩ := exec_flashStep_healed_cases hinv.admitted hf hop
    refine ⟨_, hboot, fun _ => rfl, by simp [hf], fun _ hgood => ?_⟩
    exact Host.Outcome.next.inj (hboot.symm.trans (exec_flashStep_healed hinv.admitted hf hop hgood))
  · exact ⟨_, exec_flashStep_reflashFinish hf hop, fun _ => rfl, fun _ => rfl, by simp [hf]⟩

/-- Settles O57: the copy comes to FINISH with the images equal, and FINISH changes no byte; the backup healed is as valid
as the image it was copied from. -/
theorem wholeCopyMakesTheImagesEqual : Obligations.WholeCopyMakesTheImagesEqual := by
  intro s src dst hinv hp hc hop hseg
  obtain ⟨u, hu, hruns, hfinish, hequal⟩ := copy_from_start hinv hp hc hop hseg
  obtain ⟨t, ht, hbytes, hreflash, hheal⟩ := exec_flashStep_copyFinish hruns.inv hruns.copying hfinish
  have hcopied : ∀ k < s.cfg.imageLen, flashByte u (dst + k) = flashByte s (src + k) := fun k hk =>
    (hequal k hk).trans (hruns.source k hk)
  have hstate := hruns.moves.feState
  refine ⟨t, flashSteps_append hu ht, fun k hk => (hbytes _).trans (hcopied k hk),
    fun k hk => (hbytes _).trans (hruns.source k hk), fun hf => ?_, fun hf hgood => ?_⟩
  · rw [hreflash (hstate.trans hf)]
    cases hruns.moves
    exact ⟨rfl, rfl, rfl⟩
  · obtain ⟨rfl, rfl⟩ : src = s.cfg.destBase ∧ dst = s.cfg.originBase := by simpa [Copying, hf] using hc
    have hvalid : ¬ ImageBad u u.cfg.originBase := by
      rw [hruns.moves.cfg, imageBad_congr hinv.admitted hruns.moves.cfg hcopied]
      exact hgood
    rw [hheal (hstate.trans hf) hvalid]
    cases hruns.moves
    exact ⟨rfl, rfl, rfl, rfl⟩

end Sys2Proof.Machine
end

section
/-! Proofs for 70_reset_and_hazards: what a FLASH_STEP of a reflash leaves, and the next states of RESET and
POWER_FAIL. -/

namespace Sys2Proof.Machine

/-! ### A micro-operation of a reflash (70 R279) -/

/-- A reflash erases or writes, or its FINISH arms the watchdog; it has no VERIFY (44 R205). -/
theorem exec_flashStep_reflash_cases {s t : State} (hf : s.feState = .reflashing) (h : exec .flashStep s = .next t) :
    EngineMoves s t ∨ t = reflashFinish s := by
  have hc : Copying s s.cfg.originBase s.cfg.destBase := .inl ⟨hf, rfl, rfl⟩
  cases hop : s.feOp with
  | erase => exact .inl (exec_flashStep_copy_moves hc (.inl hop) h)
  | write => exact .inl (exec_flashStep_copy_moves hc (.inr hop) h)
  | verify =>
    replace h : execFlashStep s = .next t := h
    simp only [execFlashStep, hf, hop] at h
    cases h
  | finish =>
    rw [exec_flashStep_reflashFinish hf hop] at h
    cases h
    exact .inr rfl

/-- Settles O49: an ERASE or a WRITE moves the engine within REFLASHING, and FINISH goes to REBOOTED. -/
theorem reflashMakesNoCallOut : Obligations.ReflashMakesNoCallOut := by
  intro s t hf h
  rcases exec_flashStep_reflash_cases hf h with hmoves | rfl
  · refine ⟨?_, .inl (hmoves.feState.trans hf)⟩
    cases hmoves
    rfl
  · exact ⟨rfl, .inr rfl⟩

/-! ### RESET (70 R270, R271) -/

theorem exec_reset_of_enabled {c : ResetSource} {s : State} (h : ResetEnabled c s) :
    exec (.reset c) s = .next (emit (.reset (resetCause c)) (resetElements s)) := if_pos h

/-- Settles O51: the next state is the reset elements with one more record, and only the record depends on the cause. -/
theorem resetLeavesTheResetValues : Obligations.ResetLeavesTheResetValues := by
  intro s c he
  refine ⟨_, exec_reset_of_enabled he, by simp [de, gie], fun _ => rfl, rfl, rfl, fun hc => hc ▸ rfl,
    fun hc => hc ▸ rfl, fun hc => hc ▸ rfl, fun c' t' h he' => ?_⟩
  cases (exec_reset_of_enabled he').symm.trans h
  rfl

/-! ### POWER_FAIL (70 R272) -/

/-- The state with `bytes` on the target of the next micro-operation. -/
def withTarget (s : State) (bytes : Bytes) : State :=
  { s with flash := s.flash.storeAll (some s.cfg.erasedByte) (pfTarget s).1 bytes }

theorem flashByte_withTarget (s : State) (bytes : Bytes) (x : Nat) :
    flashByte (withTarget s bytes) x =
      if (pfTarget s).1 ≤ x ∧ x < (pfTarget s).1 + bytes.length then bytes.getD (x - (pfTarget s).1) 0
      else flashByte s x := flashByte_storeAll s _ bytes x

theorem flashByte_withTarget_inside (s : State) (bytes : Bytes) {k : Nat} (hk : k < bytes.length) :
    flashByte (withTarget s bytes) ((pfTarget s).1 + k) = bytes[k] := by
  rw [flashByte_withTarget, if_pos (by omega), Nat.add_sub_cancel_left, List.getD_eq_getElem _ _ hk]

theorem flashByte_withTarget_outside (s : State) (bytes : Bytes) {x : Nat}
    (hx : x < (pfTarget s).1 ∨ (pfTarget s).1 + bytes.length ≤ x) :
    flashByte (withTarget s bytes) x = flashByte s x := by
  rw [flashByte_withTarget, if_neg (by omega)]

/-- The target lies in the flash, so the drawn bytes can be stored; the reset is that of the block over that flash. -/
theorem exec_powerFail {s : State} {d : Bytes} (hinv : Inv s) (hd : d.length = (pfTarget s).2) :
    exec (.powerFail d) s = .next (emit (.reset .powerFail) (resetElements (withTarget s d))) := by
  have hin : InFlash s (pfTarget s).1 d.length ∨ d = [] := by
    rw [hd, ← List.length_eq_zero_iff, hd]
    exact (pfTarget_in_flash hinv).symm
  show finish (powerFail d s) = _
  rw [powerFail, ← hd, drawBytes_given, flashStores_eq, if_pos hin]
  rfl

/-- Settles O52: the drawn bytes over the target, then the reset elements with the record POWER_FAIL. -/
theorem powerFailCorruptsOnlyItsTarget : Obligations.PowerFailCorruptsOnlyItsTarget := by
  intro s d hinv hd
  refine ⟨_, _, exec_powerFail hinv hd, exec_reset_of_enabled nofun,
    fun k hk => flashByte_withTarget_inside s d hk, fun a ha => flashByte_withTarget_outside s d ha, rfl,
    fun hnil => hnil ▸ rfl⟩

end Sys2Proof.Machine
end
